-- ==== Sys2Proof/Word.lean ====
section
/-!
DEFINITION. The words of the block (spec 00_scope.md rules R5, R8, R11) and its two fixed-length vectors: five
limbs (LA, LB, R) and nine coefficients (C).
-/

namespace Sys2Proof

/-- One byte: the CMD field (R37), or one beat of a platform's byte bus (R46). -/
abbrev Byte := BitVec 8

/-- A limb word, `W` = 64 bits (R5, R8). -/
abbrev Limb := BitVec 64

/-- A double-width accumulator value, `ACC` = 128 bits (R8): a product, a coefficient, a carried sum. -/
abbrev Coeff := BitVec 128

/-- A request word, `REQ_BITS` = 648 bits (R8, R36). -/
abbrev Request := BitVec 648

/-- Five like things, element 0 first: the limbs L0..L4 of a limb vector, least significant first (R5). -/
structure Five (α : Type) where
  l0 : α
  l1 : α
  l2 : α
  l3 : α
  l4 : α
  deriving DecidableEq, Repr

/-- Nine like things, element 0 first: the coefficients C0..C8 (R8, `NCOEFF`). -/
structure Nine (α : Type) where
  c0 : α
  c1 : α
  c2 : α
  c3 : α
  c4 : α
  c5 : α
  c6 : α
  c7 : α
  c8 : α
  deriving DecidableEq, Repr

/-- A limb vector (R5). -/
abbrev Limbs := Five Limb

/-- The nine coefficient values of one multiplication. -/
abbrev Coeffs := Nine Coeff

/-- Element i of five: `A[i]`, `R[i]` in the spec's notation (R11). -/
def Five.get {α : Type} (x : Five α) : Fin 5 → α
  | 0 => x.l0
  | 1 => x.l1
  | 2 => x.l2
  | 3 => x.l3
  | 4 => x.l4

/-- Element k of nine: `C[k]` in the spec's notation (R11). -/
def Nine.get {α : Type} (x : Nine α) : Fin 9 → α
  | 0 => x.c0
  | 1 => x.c1
  | 2 => x.c2
  | 3 => x.c3
  | 4 => x.c4
  | 5 => x.c5
  | 6 => x.c6
  | 7 => x.c7
  | 8 => x.c8

/-- The five values of a function of the index. -/
def Five.tabulate {α : Type} (f : Fin 5 → α) : Five α := ⟨f 0, f 1, f 2, f 3, f 4⟩

/-- The nine values of a function of the index. -/
def Nine.tabulate {α : Type} (f : Fin 9 → α) : Nine α :=
  ⟨f 0, f 1, f 2, f 3, f 4, f 5, f 6, f 7, f 8⟩

/-- Apply a function to each of five. -/
def Five.map {α β : Type} (f : α → β) (x : Five α) : Five β := Five.tabulate fun i => f (x.get i)

/-- Apply a function to each of nine. -/
def Nine.map {α β : Type} (f : α → β) (x : Nine α) : Nine β := Nine.tabulate fun k => f (x.get k)

/-- The same value five times. -/
def Five.fill {α : Type} (v : α) : Five α := Five.tabulate fun _ => v

/-- The same value nine times. -/
def Nine.fill {α : Type} (v : α) : Nine α := Nine.tabulate fun _ => v

/-- The five elements as a list, element 0 first. -/
def Five.toList {α : Type} (x : Five α) : List α := [x.l0, x.l1, x.l2, x.l3, x.l4]

/-- The nine elements as a list, element 0 first. -/
def Nine.toList {α : Type} (x : Nine α) : List α :=
  [x.c0, x.c1, x.c2, x.c3, x.c4, x.c5, x.c6, x.c7, x.c8]

/-- The low five of nine: C0..C4, what the carry-propagation unit is given (R57, R60). -/
def Nine.low {α : Type} (x : Nine α) : Five α := ⟨x.c0, x.c1, x.c2, x.c3, x.c4⟩

end Sys2Proof
end

