-- ==== Sys2Proof/Syntax.lean ====
section
/-!
DEFINITION. The commands of the block (one constructor per row of spec/opcode_table.json), the fields a host can
READ (R95), the host's directives (R45, R97, R98), and the lines of the assembler syntax (R44, R45) with their
numbers as written.
-/

namespace Sys2Proof

/-- The block's instructions: its two commands, each with its two operands (R38, R42). A request whose CMD is neither
0x00 nor 0x01 is no instruction (R39). -/
inductive Instr where
  /-- `mul.sb A, B`, CMD 0x00 (R58). -/
  | mulSb (a b : Limbs)
  /-- `mul.ka A, B`, CMD 0x01 (R83). -/
  | mulKa (a b : Limbs)
  deriving DecidableEq, Repr

/-- A command's operand A (R42). -/
def Instr.opA : Instr → Limbs
  | .mulSb a _ => a
  | .mulKa a _ => a

/-- A command's operand B (R42). -/
def Instr.opB : Instr → Limbs
  | .mulSb _ b => b
  | .mulKa _ b => b

/-- What a READ can name (R95). -/
inductive Field where
  | reqReady
  | rspValid
  | status
  | r (i : Fin 5)
  | c (k : Fin 9)
  deriving DecidableEq, Repr

/-- What a READ returns, at the width of its field: a flag, the 2-bit STATUS, a 64-bit limb or a 128-bit coefficient. -/
inductive FieldValue where
  | flag (b : Bool)
  | code (v : BitVec 2)
  | limb (v : Limb)
  | coeff (v : Coeff)
  deriving DecidableEq, Repr

/-- One interaction of the host with an instance (R45, R98). -/
inductive Directive where
  /-- Assert RESET (R113); `presented` is what the request channel presents at the same point, which RESET keeps from
  being accepted (R104, R120). -/
  | reset (presented : Option Request)
  /-- A request line: present the word and hold it until ACCEPT (R45, R90). -/
  | request (req : Request)
  /-- Present the word at one point of the run and withdraw it if it was not accepted there (R90, R98). -/
  | offer (req : Request)
  /-- Hold until RSP_VALID = 1 (R45). -/
  | wait
  /-- READ one field (R95). -/
  | read (f : Field)
  /-- READ one field and compare it, a check on the host's side that does not affect the block (R45). -/
  | expect (f : Field) (v : FieldValue)
  deriving DecidableEq, Repr

/-- A line of a host script with its numbers as written (R44, R45): the raw term that `SourceLine.wellFormed` checks
and `SourceLine.lower` turns into a directive. -/
inductive SourceLine where
  /-- `mul.sb [a0, …], [b0, …]`. -/
  | mulSb (a b : List Nat)
  /-- `mul.ka [a0, …], [b0, …]`. -/
  | mulKa (a b : List Nat)
  /-- `.cmd <byte>, [a0, …], [b0, …]`: any CMD byte, illegal ones included. -/
  | cmd (byte : Nat) (a b : List Nat)
  | reset
  | wait
  | read (f : Field)
  | expect (f : Field) (v : Nat)
  deriving DecidableEq, Repr

end Sys2Proof
end

