-- ==== Sys2Proof/Config.lean ====
section
/-!
DEFINITION. What is fixed for the hardware (spec 00_scope.md rule R8), its open parameters (R9) and the free
values (R11 `draw`, R93, R24).
-/

namespace Sys2Proof.Config

/-- Limbs of a limb vector (R8). -/
def NLIMBS : Nat := 5

/-- The radix exponent: limb i has weight 2^(52·i) (R8). -/
def RADIX_BITS : Nat := 52

/-- Bits of a limb word (R8). -/
def W : Nat := 64

/-- Bits of the accumulator (R8). -/
def ACC : Nat := 128

/-- Coefficients C0..C8 (R8). -/
def NCOEFF : Nat := 9

/-- Products of the schoolbook multiplier (R8, R87). -/
def NPROD_SB : Nat := 25

/-- Products of the Karatsuba multiplier (R8, R87). -/
def NPROD_KA : Nat := 14

/-- Bits of the command field (R8, R37). -/
def CMD_BITS : Nat := 8

/-- Bits of a request word (R8, R36). -/
def REQ_BITS : Nat := 648

/-- Bits of a response word (R8, R40). -/
def RSP_BITS : Nat := 1480

/-- The open parameter `OOB_RESULT` (R9, R93): what a legal command does to R and C when its operands break the
overflow-safety bound. -/
inductive OobResult where
  /-- R and C take free values: the default (R9). -/
  | any
  /-- R and C take the wrapped values of the datapath. -/
  | datapath
  deriving DecidableEq, Repr

/-- The open parameter `SERIAL_BYTE_ORDER` (R9, R46), of a platform's byte bus only. It has no default, so every
function that depends on it takes it as an argument (log 10). -/
inductive SerialByteOrder where
  | little
  | big
  deriving DecidableEq, Repr

/-- What a free value is drawn for. Two uses with different purposes are different free values: out of bound, a model may
rely neither on `mul.ka` and `mul.sb` agreeing (R84) nor on a command agreeing with itself on swapped operands (R86). -/
inductive DrawFor where
  /-- A result of this command, with these operands in this order (R93). -/
  | command (i : Instr)
  /-- A latch after a RESET step (R24). -/
  | reset
  deriving DecidableEq, Repr

/-- Free values, R11's `draw(BitVec 64)`: by purpose, stream and number, an unconstrained limb. No body: nothing can be
proved of one (log 3 and 4). -/
opaque drawLimb (p : DrawFor) (stream n : Nat) : Limb

/-- Free values, R11's `draw(BitVec 128)` (log 4). -/
opaque drawCoeff (p : DrawFor) (stream n : Nat) : Coeff

/-- Free values for the unspecified LCMD after a RESET step (R24, log 3). -/
opaque drawByte (p : DrawFor) (stream n : Nat) : Byte

/-- R93's `draw(5 × BitVec 64)`, one free value each, the first of them numbered n. -/
def drawLimbs (p : DrawFor) (stream n : Nat) : Limbs := Five.tabulate fun i => drawLimb p stream (n + i.val)

/-- R93's `draw(9 × BitVec 128)`, one free value each, the first of them numbered n. -/
def drawCoeffs (p : DrawFor) (stream n : Nat) : Coeffs := Nine.tabulate fun k => drawCoeff p stream (n + k.val)

end Sys2Proof.Config
end

