-- ==== Sys2Proof/WellFormed.lean ====
section
/-!
DEFINITION. Well-formedness. An instruction has none to check: any 64-bit word is a limb (R7, log 20). The lines
of the assembler syntax have: five limbs per vector, each below 2^64 (R44), a CMD byte below 2^8 (R36, R44), and an expected
value that fits its field (the model's choice, log 24).
-/

namespace Sys2Proof

/-- Every instruction term is well formed: "Any 64-bit word is accepted as a limb" (R7); InBound is a precondition on the
requester and no check of the block (R7, R103). -/
def Instr.wellFormed : Instr → Bool
  | .mulSb _ _ => true
  | .mulKa _ _ => true

/-- Five limbs, 0 ≤ limb < 2^64 each (R44). -/
def limbsOk (xs : List Nat) : Bool :=
  xs.length == Config.NLIMBS && xs.all fun x => decide (x < 2 ^ Config.W)

/-- The width in bits of what a READ of the field returns (R14, R18, R20, R21, R22). -/
def Field.width : Field → Nat
  | .reqReady => 1
  | .rspValid => 1
  | .status => 2
  | .r _ => Config.W
  | .c _ => Config.ACC

/-- The checks on a line of a host script. Those on a request line are R44's. That an `expect`'s value fits its field is a
DESIGN CHOICE (log 24): R45 does not say so; the model refuses such a line, and with it the whole script, where a check
that fails would be another reading. -/
def SourceLine.wellFormed : SourceLine → Bool
  | .mulSb a b => limbsOk a && limbsOk b
  | .mulKa a b => limbsOk a && limbsOk b
  | .cmd byte a b => decide (byte < 2 ^ Config.CMD_BITS) && limbsOk a && limbsOk b
  | .reset => true
  | .wait => true
  | .read _ => true
  | .expect f v => decide (v < 2 ^ f.width)

end Sys2Proof
end

