-- ==== Sys2Proof/Decode.lean ====
section
/-!
DEFINITION. Decoding a request word (R36–R39, R43), encoding an instruction (R36, R44), the byte order of a platform's
bus (R46), and the assembly of a source line (R44, R45).
-/

namespace Sys2Proof

/-! ## The fields of a request word (R36, R37) -/

/-- `CMD = REQ[7:0]` (R36). -/
def reqCmd (q : Request) : Byte := q.extractLsb' 0 8

/-- `Ai = REQ[8+64i+63 : 8+64i]` (R36). -/
def reqA (q : Request) : Limbs := Five.tabulate fun i => q.extractLsb' (8 + 64 * i.val) 64

/-- `Bi = REQ[328+64i+63 : 328+64i]` (R36). -/
def reqB (q : Request) : Limbs := Five.tabulate fun i => q.extractLsb' (328 + 64 * i.val) 64

/-- `ALG = CMD[1:0]` (R37). -/
def cmdAlg (cmd : Byte) : BitVec 2 := cmd.extractLsb' 0 2

/-- `RSVD = CMD[7:2]` (R37). -/
def cmdRsvd (cmd : Byte) : BitVec 6 := cmd.extractLsb' 2 6

/-! ## Decoding -/

/-- R38's three outcomes of decoding a CMD byte. -/
inductive Command where
  | mulSb
  | mulKa
  | illegal
  deriving DecidableEq, Repr

/-- R38's opcode map, total on all 256 values. -/
def decodeCmd (cmd : Byte) : Command :=
  if cmd = 0x00 then .mulSb else if cmd = 0x01 then .mulKa else .illegal

/-- Why bytes or words spell no instruction. -/
inductive DecodeError where
  /-- CMD is neither 0x00 nor 0x01 (R39): COMPLETE answers it with ILLEGAL_CMD (R100). -/
  | illegalCmd (cmd : Byte)
  /-- A request is 648 bits, 81 bytes, and has no other length (R43). -/
  | wrongLength (nbytes : Nat)
  deriving DecidableEq, Repr

/-- Decoding a command byte with its two operands. The operands never decide the outcome (R38). -/
def decodeParts (cmd : Byte) (a b : Limbs) : Except DecodeError Instr :=
  match decodeCmd cmd with
  | .mulSb => .ok (.mulSb a b)
  | .mulKa => .ok (.mulKa a b)
  | .illegal => .error (.illegalCmd cmd)

/-- Decoding a request word (R36, R38). -/
def decode (q : Request) : Except DecodeError Instr := decodeParts (reqCmd q) (reqA q) (reqB q)

/-! ## Encoding -/

/-- `B4 ∥ B3 ∥ B2 ∥ B1 ∥ B0 ∥ A4 ∥ A3 ∥ A2 ∥ A1 ∥ A0 ∥ CMD`, most significant part on the left (R44). -/
def assemble (cmd : Byte) (a b : Limbs) : Request :=
  b.l4 ++ (b.l3 ++ (b.l2 ++ (b.l1 ++ (b.l0 ++ (a.l4 ++ (a.l3 ++ (a.l2 ++ (a.l1 ++ (a.l0 ++ cmd)))))))))

/-- The request word of an instruction (R36, R38). -/
def encode : Instr → Request
  | .mulSb a b => assemble 0x00 a b
  | .mulKa a b => assemble 0x01 a b

/-! ## A platform's byte bus (R46) -/

/-- The n bytes of a word, byte j being bits [8j+7 : 8j]. -/
def bytesLow {w : Nat} (n : Nat) (x : BitVec w) : List Byte :=
  (List.range n).map fun j => x.extractLsb' (8 * j) 8

/-- The bytes of a word in the order a bus moves them: `little` sends byte 0 first, `big` the reverse (R46). -/
def toBytes {w : Nat} (order : Config.SerialByteOrder) (n : Nat) (x : BitVec w) : List Byte :=
  match order with
  | .little => bytesLow n x
  | .big => (bytesLow n x).reverse

/-- The number whose bytes, least significant first, are these. -/
def natOfBytes : List Byte → Nat
  | [] => 0
  | y :: ys => y.toNat + 256 * natOfBytes ys

/-- The word whose bytes a bus moved in this order (R46). -/
def ofBytes (order : Config.SerialByteOrder) (w : Nat) (bs : List Byte) : BitVec w :=
  match order with
  | .little => BitVec.ofNat w (natOfBytes bs)
  | .big => BitVec.ofNat w (natOfBytes bs.reverse)

/-- The bytes of a request on a byte bus: 81 of them. -/
def requestBytes (order : Config.SerialByteOrder) (q : Request) : List Byte := toBytes order 81 q

/-- Decoding the bytes of a request, total on any bytes. -/
def decodeBytes (order : Config.SerialByteOrder) (bs : List Byte) : Except DecodeError Instr :=
  if bs.length = 81 then decode (ofBytes order 648 bs) else .error (.wrongLength bs.length)

/-- The low nbits of w as a request word, every bit above them 0; of more than 648 bits, the low 648 (log 21). -/
def tableRequest (nbits w : Nat) : Request :=
  if h : nbits ≤ Config.REQ_BITS then (BitVec.ofNat nbits w).setWidth' h else BitVec.ofNat 648 w

/-- The instruction the decoder reads from a request word whose low nbits are w and whose other bits are 0. No request word
has more than 648 bits (R43). -/
def decodeTableWord (nbits w : Nat) : Option Instr :=
  if nbits ≤ Config.REQ_BITS then (decode (tableRequest nbits w)).toOption else none

/-! ## Source lines (R44, R45) -/

/-- The limb vector of five numbers, limb 0 first; none for another count. -/
def limbsOfList : List Nat → Option Limbs
  | [x0, x1, x2, x3, x4] =>
    some ⟨BitVec.ofNat 64 x0, BitVec.ofNat 64 x1, BitVec.ofNat 64 x2, BitVec.ofNat 64 x3, BitVec.ofNat 64 x4⟩
  | _ => none

/-- The request word of a CMD byte and two vectors of numbers. -/
def requestOfNumbers (byte : Nat) (a b : List Nat) : Option Request :=
  match limbsOfList a, limbsOfList b with
  | some va, some vb => some (assemble (BitVec.ofNat 8 byte) va vb)
  | _, _ => none

/-- A number as a value of a field, at the field's width. -/
def Field.valueOfNat : Field → Nat → FieldValue
  | .reqReady, v => .flag (v == 1)
  | .rspValid, v => .flag (v == 1)
  | .status, v => .code (BitVec.ofNat 2 v)
  | .r _, v => .limb (BitVec.ofNat 64 v)
  | .c _, v => .coeff (BitVec.ofNat 128 v)

/-- Assembling a line of a host script: none for a line that is not well formed, else its directive, which for a request
line is exactly one request word (R44). -/
def SourceLine.lower (l : SourceLine) : Option Directive :=
  if l.wellFormed then
    match l with
    | .mulSb a b => (requestOfNumbers 0x00 a b).map .request
    | .mulKa a b => (requestOfNumbers 0x01 a b).map .request
    | .cmd byte a b => (requestOfNumbers byte a b).map .request
    | .reset => some (.reset none)
    | .wait => some .wait
    | .read f => some (.read f)
    | .expect f v => some (.expect f (f.valueOfNat v))
  else none

end Sys2Proof
end

