-- ==== Sys2Proof/Machine/Datapath.lean ====
section
/-!
DEFINITION. The datapath primitives (spec 40_accumulator_adder.md): limb pre-adder, product unit, 128-bit accumulator
adder. None keeps a carry, sets a flag or traps (R53).
-/

namespace Sys2Proof.Machine

/-- `LSUM(x1, …, xn)`, n = 2, 3 or 4: the sum modulo 2^64 (R47). -/
def lsum (xs : List Limb) : Limb := BitVec.ofNat 64 (xs.map BitVec.toNat).sum

/-- `PROD(x, y)`: the 128-bit product (R48). -/
def prod (x y : Limb) : Coeff := BitVec.ofNat 128 (x.toNat * y.toNat)

/-- `ACC_ADD(x, y)`: the sum modulo 2^128 (R49). -/
def accAdd (x y : Coeff) : Coeff := BitVec.ofNat 128 (x.toNat + y.toNat)

/-- `ACC_SUB(x, y)`: the difference modulo 2^128 (R50). -/
def accSub (x y : Coeff) : Coeff := BitVec.ofNat 128 (x.toNat + 2 ^ 128 - y.toNat)

/-- `ACC_DBL(x) = ACC_ADD(x, x)` (R51). -/
def accDbl (x : Coeff) : Coeff := accAdd x x

/-- R52's expressions: anything built from 128-bit values with the accumulator's three operations, in any grouping. -/
inductive AccExpr where
  | leaf (x : Coeff)
  | add (e f : AccExpr)
  | sub (e f : AccExpr)
  | dbl (e : AccExpr)
  deriving DecidableEq, Repr

/-- What the accumulator computes of an expression (R49–R51). -/
def AccExpr.eval : AccExpr → Coeff
  | .leaf x => x
  | .add e f => accAdd e.eval f.eval
  | .sub e f => accSub e.eval f.eval
  | .dbl e => accDbl e.eval

/-- The same expression "evaluated exactly in ℤ on the toNat values of its leaves" (R52). -/
def AccExpr.exact : AccExpr → Int
  | .leaf x => x.toNat
  | .add e f => e.exact + f.exact
  | .sub e f => e.exact - f.exact
  | .dbl e => 2 * e.exact

end Sys2Proof.Machine
end

