-- ==== Sys2Proof/Machine/CarryPropagation.lean ====
section
/-!
DEFINITION. The carry-propagation unit (spec 42_carry_propagation.md): one unit, used by both commands (R67).
-/

namespace Sys2Proof.Machine

/-- `LOW52(t) = zext_64(t[51:0])` (R61). -/
def low52 (t : Coeff) : Limb := (t.extractLsb' 0 52).setWidth 64

/-- `SHR52(t) = t >> 52`, a logical shift (R61). -/
def shr52 (t : Coeff) : Coeff := t >>> 52

/-- What the unit computes: the output limbs, and the transient carried sums and carries (R60, R23). -/
structure FoldResult where
  /-- `RO[0..4]`. -/
  ro : Limbs
  /-- `T[0..4]`, the carried sums. -/
  t : Five Coeff
  /-- `K[0..4]`, the carries; K[4] is delivered nowhere (R64). -/
  k : Five Coeff
  deriving DecidableEq, Repr

/-- The carried sums `T[0] = CI[0]`, `T[k] = ACC_ADD(CI[k], K[k-1])`, `K[k] = SHR52(T[k])` (R62). -/
def carriedSums (ci : Five Coeff) : Five Coeff :=
  let t0 := ci.l0
  let t1 := accAdd ci.l1 (shr52 t0)
  let t2 := accAdd ci.l2 (shr52 t1)
  let t3 := accAdd ci.l3 (shr52 t2)
  let t4 := accAdd ci.l4 (shr52 t3)
  ⟨t0, t1, t2, t3, t4⟩

/-- `FOLD(CI[0..4]) -> RO[0..4]` (R62), with the transients it is computed through. The inputs are left as they are: C
delivers the coefficients before carry absorption (R60). -/
def fold (ci : Five Coeff) : FoldResult :=
  let t := carriedSums ci
  { ro := t.map low52, t := t, k := t.map shr52 }

end Sys2Proof.Machine
end

