-- ==== Sys2Proof/Machine/State.lean ====
section
/-!
DEFINITION. The state of one instance (spec 10_state.md rule R12), with what its step takes as arguments: the parameter
OOB_RESULT, the host's pending directives and the order of moves (R9, R88, R97). Plain data throughout; the block has
no memory (R29).
-/

namespace Sys2Proof.Machine

/-- `PHASE` (R13). -/
inductive Phase where
  /-- A request can be accepted. -/
  | idle
  /-- From the ACCEPT of a request to its COMPLETE. -/
  | busy
  deriving DecidableEq, Repr

/-- Who moves at one point of a run at which PHASE = BUSY: R88 fixes no order, so it is data (log 6). -/
inductive Turn where
  /-- The host moves. -/
  | host
  /-- The instance takes COMPLETE. -/
  | block
  /-- Both are due at the same point: RESET wins if the host asserts it there (R104, R120), else COMPLETE comes first
  (log 11). -/
  | both
  deriving DecidableEq, Repr

/-- The faults a step can end in: one (R96). -/
inductive Fault where
  /-- HOST_READ_INVALID (R95): raised by a READ of STATUS, R or C while RSP_VALID = 0 or of an element that holds no
  value. Safe: the built block shows some bits there, and the model gives them no meaning. -/
  | hostReadInvalid (f : Field)
  deriving DecidableEq, Repr

/-- The refusals: R96 knows none, and no arm of `exec` uses this one. -/
inductive Refusal where
  /-- An instruction that has no meaning yet. Raised by nobody; it would be safe. -/
  | notModelled (mnemonic : String)
  deriving DecidableEq, Repr

/-- One instance and what its step depends on. `Option` is the spec's "or ⊥" (R19): `none` is an element that holds no
value. -/
structure State where
  /-- `PHASE` (R13). -/
  phase : Phase
  /-- `LCMD`, the CMD byte of the request accepted last (R15). -/
  lcmd : Byte
  /-- `LA[0..4]`, operand A of the request accepted last (R16). -/
  la : Limbs
  /-- `LB[0..4]`, operand B of the request accepted last (R17). -/
  lb : Limbs
  /-- `R[0..4]`, the result limbs (R18). -/
  r : Five (Option Limb)
  /-- `C[0..8]`, the coefficients (R20). -/
  c : Nine (Option Coeff)
  /-- `STATUS` (R21). -/
  status : Option (BitVec 2)
  /-- `RSP_VALID` (R22). -/
  rspValid : Bool
  /-- The parameter `OOB_RESULT`, an argument of the step; no step writes it (R9, R27, log 5). -/
  oobResult : Config.OobResult
  /-- The model's own: the host's directives still to be carried out, first one first (R45, R97, log 6). -/
  script : List Directive
  /-- The model's own: who moves at the coming points at which PHASE = BUSY (R88, R121, log 6). -/
  turns : List Turn
  /-- The model's own: what READs returned, oldest first (R97, log 14). -/
  observed : List FieldValue
  /-- The model's own: whether each `expect` so far held, oldest first (R45, log 14). -/
  checks : List Bool
  /-- The model's own: how many free values have been used (R11, R93, log 4). -/
  draws : Nat
  /-- The model's own: which stream of free values the instance draws from, an argument of the step; no step writes it
  (R11, R93, log 4). -/
  stream : Nat
  deriving DecidableEq, Repr

/-- The machine right after RESET (R24, R113): PHASE = IDLE, RSP_VALID = 0, STATUS, R and C hold no value. The latches are
unspecified there (R24): zero is the model's choice (DESIGN CHOICE, log 2). OOB_RESULT is its default (R9). The model's
own fields are empty or 0: no program is placed, no free value used (DESIGN CHOICE, log 4, 6, 7 and 14). -/
def State.reset : State where
  phase := .idle
  lcmd := 0
  la := Five.fill 0
  lb := Five.fill 0
  r := Five.fill none
  c := Nine.fill none
  status := none
  rspValid := false
  oobResult := .any
  script := []
  turns := []
  observed := []
  checks := []
  draws := 0
  stream := 0

end Sys2Proof.Machine
end

