-- ==== Sys2Proof/Machine/Flags.lean ====
section
/-!
DEFINITION. The three flags of the block (R26): STATUS codes (R41), RSP_VALID (a field of State, R22) and REQ_READY,
which is computed (R14). No adder has a flag (R53).
-/

namespace Sys2Proof.Machine

/-- STATUS code OK (R41). -/
def statusOk : BitVec 2 := 0b00

/-- STATUS code ILLEGAL_CMD (R41, R100). -/
def statusIllegalCmd : BitVec 2 := 0b01

/-- `REQ_READY = (PHASE == IDLE)` (R14). -/
def State.reqReady (s : State) : Bool := s.phase == .idle

end Sys2Proof.Machine
end

