-- ==== Sys2Proof/Machine/Operands.lean ====
section
/-!
DEFINITION. What the spec says of operands as exact numbers: the value of a limb vector (R6), the convolution
coefficients (R54), the groups of the Karatsuba sums (R68) and the overflow-safety bound InBound (R81).
-/

namespace Sys2Proof.Machine

/-- `value(L) = Σ toNat(L[i]) · 2^(52·i)`, exact in ℕ (R6). -/
def limbsValue (x : Limbs) : Nat :=
  x.l0.toNat + x.l1.toNat * 2 ^ 52 + x.l2.toNat * 2 ^ 104 + x.l3.toNat * 2 ^ 156 + x.l4.toNat * 2 ^ 208

/-- The pairs (i, j) with i + j = k, i and j from 0 to 4, in the order of R55's loop over i. -/
def indexPairs (k : Nat) : List (Fin 5 × Fin 5) :=
  [0, 1, 2, 3, 4].filterMap fun i : Fin 5 =>
    if h : i.val ≤ k ∧ k - i.val < 5 then some (i, ⟨k - i.val, h.2⟩) else none

/-- `Conv_k(A, B)`, the exact convolution coefficient (R54). -/
def conv (a b : Limbs) (k : Nat) : Nat :=
  ((indexPairs k).map fun p => (a.get p.1).toNat * (b.get p.2).toNat).sum

/-- `E_k`: the exact carried sums of the fold (R81 (c)). -/
def exactCarried (a b : Limbs) : Nat → Nat
  | 0 => conv a b 0
  | k + 1 => conv a b (k + 1) + exactCarried a b k / 2 ^ 52

/-- The nine groups of limb indices: G2, G4, G5, G6, G7, G9, G11, G13, G14 (R68). -/
def groups : List (List (Fin 5)) :=
  [[0, 1], [0, 2], [0, 1, 2, 3], [1, 3], [0, 2, 4], [1, 3, 4], [2, 3], [2, 4], [3, 4]]

/-- The exact sum of the limbs of a group. -/
def exactGroupSum (x : Limbs) (g : List (Fin 5)) : Nat := (g.map fun i => (x.get i).toNat).sum

/-- R81 (a): every group sum of each operand is below 2^64. -/
def boundA (a b : Limbs) : Bool :=
  groups.all fun g => decide (exactGroupSum a g < 2 ^ 64) && decide (exactGroupSum b g < 2 ^ 64)

/-- R81 (b): every product of two such sums is below 2^128. -/
def boundB (a b : Limbs) : Bool :=
  let sums := groups.map (exactGroupSum a) ++ groups.map (exactGroupSum b)
  sums.all fun x => sums.all fun y => decide (x * y < 2 ^ 128)

/-- R81 (c): every Conv_k, k = 0..8, and every E_k, k = 0..4, is below 2^128. -/
def boundC (a b : Limbs) : Bool :=
  ((List.range 9).all fun k => decide (conv a b k < 2 ^ 128)) &&
  ((List.range 5).all fun k => decide (exactCarried a b k < 2 ^ 128))

/-- `InBound(A, B)`, the overflow-safety bound (R81). -/
def inBound (a b : Limbs) : Bool := boundA a b && boundB a b && boundC a b

end Sys2Proof.Machine
end

