-- ==== Sys2Proof/Machine/Ops.lean ====
section
/-!
DEFINITION. The shared operations on the state: writing a response (R94), completing a command (R91, R93), the
ILLEGAL_CMD response, which is this hardware's one exception (R100; nothing is saved, no handler runs and there is no
return from it, R101), RESET (R113), ACCEPT (R89) and reading a field (R95).
-/

namespace Sys2Proof.Machine

/-- `respond(st, Rv, Cv)`: STATUS, R, C and RSP_VALID, all at once (R94). -/
def State.respond (st : BitVec 2) (rv : Five (Option Limb)) (cv : Nine (Option Coeff)) (s : State) : State :=
  { s with status := some st, r := rv, c := cv, rspValid := true }

/-- The end of COMPLETE: respond, then PHASE <- IDLE (R91). -/
def State.finish (st : BitVec 2) (rv : Five (Option Limb)) (cv : Nine (Option Coeff)) (s : State) : State :=
  { s.respond st rv cv with phase := .idle }

/-- How many free values an out-of-bound command uses under `any`: five limbs and nine coefficients (R93). -/
def oobDraws : Nat := 14

/-- R93's free result limbs of a command completing in this state. -/
def State.freeLimbs (i : Instr) (s : State) : Limbs := Config.drawLimbs (.command i) s.stream s.draws

/-- R93's free coefficients of a command completing in this state: numbered on from its limbs. -/
def State.freeCoeffs (i : Instr) (s : State) : Coeffs := Config.drawCoeffs (.command i) s.stream (s.draws + 5)

/-- What both commands end with (R58, R83): the coefficients the command computed go to C and through the fold to R, if its
operands are in bound or OOB_RESULT = datapath; else every R[i] and C[k] is a free value, one of this command's own
(R84, R86, R93). STATUS is OK either way. -/
def State.deliver (i : Instr) (cv : Coeffs) (s : State) : State :=
  if inBound i.opA i.opB || s.oobResult == .datapath then
    s.finish statusOk ((fold cv.low).ro.map some) (cv.map some)
  else
    { s with draws := s.draws + oobDraws }.finish statusOk ((s.freeLimbs i).map some) ((s.freeCoeffs i).map some)

/-- The ILLEGAL_CMD response (R100): STATUS = 01, R and C hold no value, PHASE = IDLE. Operands are not read. -/
def State.illegalCmd (s : State) : State := s.finish statusIllegalCmd (Five.fill none) (Nine.fill none)

/-- How many free values a RESET step uses, for LCMD, LA and LB. -/
def resetDraws : Nat := 11

/-- RESET of the instance (R113). The latches are unspecified after it: free values (R24, log 3). The host's side and
OOB_RESULT are no part of it. -/
def State.resetBlock (s : State) : State :=
  { s with
    phase := .idle
    rspValid := false
    status := none
    r := Five.fill none
    c := Nine.fill none
    lcmd := Config.drawByte .reset s.stream s.draws
    la := Config.drawLimbs .reset s.stream (s.draws + 1)
    lb := Config.drawLimbs .reset s.stream (s.draws + 6)
    draws := s.draws + resetDraws }

/-- ACCEPT(REQ) (R89). R, C and STATUS keep their values; CMD is not looked at. -/
def State.accept (q : Request) (s : State) : State :=
  { s with lcmd := reqCmd q, la := reqA q, lb := reqB q, phase := .busy, rspValid := false }

/-- READ(field) (R95): the value returned, or none where it is the fault HOST_READ_INVALID. -/
def State.readField (f : Field) (s : State) : Option FieldValue :=
  match f with
  | .reqReady => some (.flag s.reqReady)
  | .rspValid => some (.flag s.rspValid)
  | .status => if s.rspValid then s.status.map .code else none
  | .r i => if s.rspValid then (s.r.get i).map .limb else none
  | .c k => if s.rspValid then (s.c.get k).map .coeff else none

end Sys2Proof.Machine
end

