-- ==== Sys2Proof/Machine/Karatsuba.lean ====
section
/-!
DEFINITION. The Karatsuba multiplier and the command `mul.ka` (spec 43_karatsuba.md).
-/

namespace Sys2Proof.Machine

/-- The nine group sums of one operand, each 64 bits and each wrapping (R68). -/
structure GroupSums where
  g2 : Limb
  g4 : Limb
  g5 : Limb
  g6 : Limb
  g7 : Limb
  g9 : Limb
  g11 : Limb
  g13 : Limb
  g14 : Limb
  deriving DecidableEq, Repr

/-- The group sums of an operand (R68). -/
def groupSums (x : Limbs) : GroupSums where
  g2 := lsum [x.l0, x.l1]
  g4 := lsum [x.l0, x.l2]
  g5 := lsum [x.l0, x.l1, x.l2, x.l3]
  g6 := lsum [x.l1, x.l3]
  g7 := lsum [x.l0, x.l2, x.l4]
  g9 := lsum [x.l1, x.l3, x.l4]
  g11 := lsum [x.l2, x.l3]
  g13 := lsum [x.l2, x.l4]
  g14 := lsum [x.l3, x.l4]

/-- The fourteen products P1..P14 (R69). -/
structure Products where
  p1 : Coeff
  p2 : Coeff
  p3 : Coeff
  p4 : Coeff
  p5 : Coeff
  p6 : Coeff
  p7 : Coeff
  p8 : Coeff
  p9 : Coeff
  p10 : Coeff
  p11 : Coeff
  p12 : Coeff
  p13 : Coeff
  p14 : Coeff
  deriving DecidableEq, Repr

/-- The products of two operands (R69). -/
def kaProducts (a b : Limbs) : Products :=
  let ga := groupSums a
  let gb := groupSums b
  { p1 := prod a.l0 b.l0
    p2 := prod ga.g2 gb.g2
    p3 := prod a.l1 b.l1
    p4 := prod ga.g4 gb.g4
    p5 := prod ga.g5 gb.g5
    p6 := prod ga.g6 gb.g6
    p7 := prod ga.g7 gb.g7
    p8 := prod a.l4 b.l4
    p9 := prod ga.g9 gb.g9
    p10 := prod a.l2 b.l2
    p11 := prod ga.g11 gb.g11
    p12 := prod a.l3 b.l3
    p13 := prod ga.g13 gb.g13
    p14 := prod ga.g14 gb.g14 }

/-- `S1 = ACC_ADD(P1, P3)` (R70). -/
def Products.s1 (p : Products) : Coeff := accAdd p.p1 p.p3

/-- `S3 = ACC_ADD(P10, P8)` (R71; the sign is that of 90_conflicts.md C2). -/
def Products.s3 (p : Products) : Coeff := accAdd p.p10 p.p8

/-- The reconstruction of the nine coefficients (R72–R80). -/
def Products.coeffs (p : Products) : Coeffs where
  c0 := p.p1
  c1 := accSub p.p2 p.s1
  c2 := accSub (accSub (accAdd p.p3 p.p4) p.p1) p.p10
  c3 := accAdd (accAdd (accSub (accSub (accSub (accAdd (accSub p.p5 p.p2) p.s1) p.p4) p.p6) p.p11) p.p10) p.p12
  c4 := accSub (accAdd (accSub (accSub (accAdd (accSub p.p7 p.p4) p.p6) p.p3) p.p13) (accDbl p.p10)) p.p12
  c5 := accSub (accSub (accAdd (accSub p.p9 p.p6) p.p11) p.p10) p.p14
  c6 := accSub (accAdd p.p13 p.p12) p.s3
  c7 := accSub (accSub p.p14 p.p12) p.p8
  c8 := p.p8

/-- `KA_C[0..8]` (R72–R80). -/
def kaCoeffs (a b : Limbs) : Coeffs := (kaProducts a b).coeffs

/-- `mul.ka A, B` (R83), performed by its COMPLETE step (R91), which is enabled when PHASE = BUSY (log 18). -/
def execMulKa (a b : Limbs) (s : State) : Host.Outcome State Fault Refusal :=
  .next (s.deliver (.mulKa a b) (kaCoeffs a b))

end Sys2Proof.Machine
end

