-- ==== Sys2Proof/Machine/Schoolbook.lean ====
section
/-!
DEFINITION. The schoolbook multiplier and the command `mul.sb` (spec 41_schoolbook.md).
-/

namespace Sys2Proof.Machine

/-- `SB_C[k]`: one accumulator, one `PROD` and one `ACC_ADD` for each i with 0 ≤ k - i ≤ 4 (R55). -/
def sbCoeff (a b : Limbs) (k : Nat) : Coeff :=
  (indexPairs k).foldl (fun acc p => accAdd acc (prod (a.get p.1) (b.get p.2))) 0

/-- `SB_C[0..8]` (R55). -/
def sbCoeffs (a b : Limbs) : Coeffs := Nine.tabulate fun k => sbCoeff a b k.val

/-- `mul.sb A, B` (R58), performed by its COMPLETE step (R91), which is enabled when PHASE = BUSY (log 18). -/
def execMulSb (a b : Limbs) (s : State) : Host.Outcome State Fault Refusal :=
  .next (s.deliver (.mulSb a b) (sbCoeffs a b))

end Sys2Proof.Machine
end

