-- ==== Sys2Proof/Machine/Dispatch.lean ====
section
/-! DEFINITION. One arm per instruction: the effect of its COMPLETE step (R91). -/

namespace Sys2Proof.Machine

def exec (i : Instr) (s : State) : Host.Outcome State Fault Refusal :=
  match i with
  | .mulSb a b => Sys2Proof.Machine.execMulSb a b s
  | .mulKa a b => Sys2Proof.Machine.execMulKa a b s

end Sys2Proof.Machine
end

