-- ==== Sys2Proof/Machine/Transactions.lean ====
section
/-!
DEFINITION. The steps of R88: which one is taken next (R88, R90, R104, R120), COMPLETE (R91), and the host's side of a
step (R45, R97, R98).
-/

namespace Sys2Proof.Machine

/-- What a step of the machine is: one of R88's four kinds, or one at which the instance does nothing. -/
inductive StepKind where
  /-- RESET (R113). -/
  | reset
  /-- ACCEPT(REQ) (R89). -/
  | accept (q : Request)
  /-- COMPLETE (R91). -/
  | complete
  /-- READ(field) (R95). -/
  | read (f : Field)
  /-- The host holds: a request presented while BUSY (R90), or a `wait` (R45). The instance does nothing. -/
  | hold
  /-- Nothing is due: PHASE = IDLE and the host asks for nothing. The instance "simply holds its state" (R112). -/
  | quiet
  deriving DecidableEq, Repr

/-- Whether a directive asserts RESET. -/
def assertsReset : Directive → Bool
  | .reset _ => true
  | .request _ => false
  | .offer _ => false
  | .wait => false
  | .read _ => false
  | .expect _ _ => false

/-- Whether the instance takes COMPLETE now. It needs PHASE = BUSY (R91). Against a host with something to do, the
coming turn decides (R88); with no turn left the instance moves (log 6); at a point where both are due, RESET wins
(R104, R120). -/
def State.blockMoves (s : State) : Bool :=
  match s.phase, s.script, s.turns with
  | .idle, _, _ => false
  | .busy, [], _ => true
  | .busy, _ :: _, [] => true
  | .busy, _ :: _, .block :: _ => true
  | .busy, d :: _, .both :: _ => !assertsReset d
  | .busy, _ :: _, .host :: _ => false

/-- What the host's directive asks of the instance (R45, R89, R90). -/
def directiveKind (s : State) : Directive → StepKind
  | .reset _ => .reset
  | .request q => if s.reqReady then .accept q else .hold
  | .offer q => if s.reqReady then .accept q else .hold
  | .wait => .hold
  | .read f => .read f
  | .expect f _ => .read f

/-- The step the machine takes in this state. -/
def State.stepKind (s : State) : StepKind :=
  if s.blockMoves then .complete
  else
    match s.script with
    | [] => .quiet
    | d :: _ => directiveKind s d

/-- Whether the host is done with the directive after this step: a request line at its ACCEPT, an offer at once, a wait
when RSP_VALID = 1, a read or expect at its READ (R97, R98). -/
def directiveDone (s : State) : Directive → Bool
  | .reset _ => true
  | .request _ => s.reqReady
  | .offer _ => true
  | .wait => s.rspValid
  | .read _ => true
  | .expect _ _ => true

/-- One point of the run passes: while BUSY it uses up a turn. -/
def State.passTurn (s : State) : State :=
  match s.phase with
  | .idle => s
  | .busy => { s with turns := s.turns.tail }

/-- The host's script after a step of the host. -/
def State.advanceScript (s : State) : State :=
  match s.script with
  | [] => s
  | d :: rest => { s with script := if directiveDone s d then rest else d :: rest }

/-- The host's side of a step of the host: a turn passes and its directive may be done. -/
def State.hostStep (s : State) : State := s.advanceScript.passTurn

/-- The outcome of the `expect` at the head of the script, if there is one, for the value its READ returned (R45). -/
def expectOutcome (v : FieldValue) : List Directive → List Bool
  | .expect _ w :: _ => [decide (v = w)]
  | _ => []

/-- The host notes what a READ returned (R97). -/
def State.note (v : FieldValue) (s : State) : State :=
  { s with observed := s.observed ++ [v], checks := s.checks ++ expectOutcome v s.script }

/-- The instruction the latches hold, which is the one the accepted request word decodes to (R15–R17, R38). -/
def State.latched (s : State) : Except DecodeError Instr := decodeParts s.lcmd s.la s.lb

/-- COMPLETE (R91): the latched instruction's effect, or the ILLEGAL_CMD response (R100). -/
def complete (s : State) : Host.Outcome State Fault Refusal :=
  match s.latched with
  | .ok i => exec i s
  | .error _ => .next s.illegalCmd

/-- READ(field) with the host's side of it (R95, R97). A READ changes nothing of the instance. -/
def readStep (f : Field) (s : State) : Host.Outcome State Fault Refusal :=
  match s.readField f with
  | some v => .next (s.note v).hostStep
  | none => .fault (.hostReadInvalid f)

/-- One step of the given kind. -/
def stepAs (k : StepKind) (s : State) : Host.Outcome State Fault Refusal :=
  match k with
  | .reset => .next s.hostStep.resetBlock
  | .accept q => .next (s.hostStep.accept q)
  | .complete => complete s.passTurn
  | .read f => readStep f s
  | .hold => .next s.hostStep
  | .quiet => .next s

/-- ACCEPT of a request word by an instance that is about to complete it (log 7). -/
def State.withRequest (q : Request) (s : State) : State :=
  { s.accept q with turns := .block :: s.turns }

end Sys2Proof.Machine
end

