-- ==== Sys2Proof/Machine/Step.lean ====
section
/-!
DEFINITION. One step of the machine (R88, R96), and the placing of an instruction where the next step runs it.
-/

namespace Sys2Proof.Machine

/-- One step: the step that is due, taken (R88). Its outcomes are those of R96. -/
def step (s : State) : Host.Outcome State Fault Refusal := stepAs s.stepKind s

/-- The state in which a request word, its bits above nbits 0, has been accepted and its COMPLETE is the next step
(R89, log 7 and 21). -/
def State.withFetchWord (s : State) (nbits w : Nat) : State := s.withRequest (tableRequest nbits w)

end Sys2Proof.Machine
end

