-- ==== Sys2Proof/Machine/Assembler.lean ====
section
/-!
DEFINITION. The text of a host script (R44, R45): characters to tokens, tokens to source lines, lines to directives
(log 16 for what the syntax leaves to the reader).
-/

namespace Sys2Proof.Machine

/-- A token of a line. -/
inductive Token where
  /-- A run of letters, digits, dots and underscores: a mnemonic, a directive, a field name or a number. -/
  | word (cs : List Char)
  | openBracket
  | closeBracket
  | comma
  | equals
  /-- A character the syntax does not use. -/
  | bad (c : Char)
  deriving DecidableEq, Repr

/-- Whether a character may stand in a word. -/
def isWordChar (c : Char) : Bool := c.isAlphanum || c == '.' || c == '_'

/-- The word read so far as a token, if there is one. -/
def flushWord (acc : List Char) : List Token := if acc.isEmpty then [] else [.word acc]

/-- The token of a character that stands for itself; none for a blank. -/
def punctuation (c : Char) : List Token :=
  if c == '[' then [.openBracket]
  else if c == ']' then [.closeBracket]
  else if c == ',' then [.comma]
  else if c == '=' then [.equals]
  else if c == ' ' || c == '\t' || c == '\r' then []
  else [.bad c]

/-- The tokens of a line; a comment runs from `;` to the end (R44). `acc` is the word read so far. -/
def tokens (acc : List Char) : List Char → List Token
  | [] => flushWord acc
  | c :: cs =>
    if c == ';' then flushWord acc
    else if isWordChar c then tokens (acc ++ [c]) cs
    else flushWord acc ++ (punctuation c ++ tokens [] cs)

/-- The value of a digit in the given base. -/
def digitOf (base : Nat) (c : Char) : Option Nat :=
  let v :=
    if 48 ≤ c.toNat ∧ c.toNat ≤ 57 then c.toNat - 48
    else if 97 ≤ c.toNat ∧ c.toNat ≤ 102 then c.toNat - 87
    else if 65 ≤ c.toNat ∧ c.toNat ≤ 70 then c.toNat - 55
    else base
  if v < base then some v else none

/-- The digits' value, most significant first, added to what stands before them. -/
def digitsValue (base : Nat) (acc : Nat) : List Char → Option Nat
  | [] => some acc
  | c :: cs =>
    match digitOf base c with
    | some v => digitsValue base (acc * base + v) cs
    | none => none

/-- A number: decimal, `0x` hex (R44), or `0b` binary (as in `expect status = 0b00`, 95_test_vectors.md program 2). -/
def numberOf : List Char → Option Nat
  | [] => none
  | '0' :: 'x' :: d :: ds => digitsValue 16 0 (d :: ds)
  | '0' :: 'b' :: d :: ds => digitsValue 2 0 (d :: ds)
  | d :: ds => digitsValue 10 0 (d :: ds)

/-- The numbers of a vector after its opening bracket, and the tokens after its closing one. -/
def vectorItems : List Token → Option (List Nat × List Token)
  | .word w :: .closeBracket :: rest => (numberOf w).map fun n => ([n], rest)
  | .word w :: .comma :: rest =>
    match numberOf w, vectorItems rest with
    | some n, some (ns, after) => some (n :: ns, after)
    | _, _ => none
  | _ => none

/-- `[a0, …], [b0, …]` and nothing after it (R44). -/
def twoVectors : List Token → Option (List Nat × List Nat)
  | .openBracket :: rest =>
    match vectorItems rest with
    | some (a, .comma :: .openBracket :: rest') =>
      match vectorItems rest' with
      | some (b, []) => some (a, b)
      | _ => none
    | _ => none
  | _ => none

/-- The names of the fields a host can read (R45; `req_ready` and `rsp_valid` for R95's other two). -/
def fieldNames : List (List Char × Field) :=
  [("status".toList, .status), ("req_ready".toList, .reqReady), ("rsp_valid".toList, .rspValid),
   ("r0".toList, .r 0), ("r1".toList, .r 1), ("r2".toList, .r 2), ("r3".toList, .r 3), ("r4".toList, .r 4),
   ("c0".toList, .c 0), ("c1".toList, .c 1), ("c2".toList, .c 2), ("c3".toList, .c 3), ("c4".toList, .c 4),
   ("c5".toList, .c 5), ("c6".toList, .c 6), ("c7".toList, .c 7), ("c8".toList, .c 8)]

/-- The field of a name. -/
def fieldOf (w : List Char) : Option Field := (fieldNames.find? fun p => p.1 == w).map Prod.snd

/-- The source line that starts with this word and goes on with these tokens. -/
def lineOf (w : List Char) (rest : List Token) : Option SourceLine :=
  if w = "mul.sb".toList then (twoVectors rest).map fun p => .mulSb p.1 p.2
  else if w = "mul.ka".toList then (twoVectors rest).map fun p => .mulKa p.1 p.2
  else if w = ".cmd".toList then
    match rest with
    | .word n :: .comma :: vs =>
      match numberOf n, twoVectors vs with
      | some byte, some p => some (.cmd byte p.1 p.2)
      | _, _ => none
    | _ => none
  else if w = "reset".toList then (if rest.isEmpty then some .reset else none)
  else if w = "wait".toList then (if rest.isEmpty then some .wait else none)
  else if w = "read".toList then
    match rest with
    | [.word f] => (fieldOf f).map .read
    | _ => none
  else if w = "expect".toList then
    match rest with
    | [.word f, .equals, .word n] =>
      match fieldOf f, numberOf n with
      | some fd, some v => some (.expect fd v)
      | _, _ => none
    | _ => none
  else none

/-- The source line of a line's characters: none for a line that is not one; a blank or comment line has none to give, so
it gives the empty list. -/
def readLine (cs : List Char) : Option (List SourceLine) :=
  match tokens [] cs with
  | [] => some []
  | .word w :: rest => (lineOf w rest).map fun l => [l]
  | _ => none

/-- The lines of a text. `acc` is the line read so far. -/
def textLines (acc : List Char) : List Char → List (List Char)
  | [] => [acc]
  | c :: cs => if c == '\n' then acc :: textLines [] cs else textLines (acc ++ [c]) cs

/-- The directives of lines, or none if one of them is not a well-formed source line. -/
def assembleLines : List (List Char) → Option (List Directive)
  | [] => some []
  | cs :: rest =>
    match readLine cs, assembleLines rest with
    | some [], some ds => some ds
    | some (l :: _), some ds => l.lower.map fun d => d :: ds
    | _, _ => none

/-- Assembling the text of a host script (R44, R45). -/
def assembleText (text : String) : Option (List Directive) := assembleLines (textLines [] text.toList)

end Sys2Proof.Machine
end

