-- ==== Sys2Proof/Machine/Platform.lean ====
section
/-!
DEFINITION. Several instances (R9 `NUM_INSTANCES`, R28, R110): independent copies of the machine, each with its own
host. They have no identifier the block can read; an index here is only the place in the list (log 9).
-/

namespace Sys2Proof.Machine

/-- The instances of a platform. -/
structure Platform where
  insts : List State
  deriving DecidableEq, Repr

/-- A platform of n instances, each right after its own RESET and with a stream of free values of its own (log 4, 9). -/
def Platform.reset (n : Nat) : Platform := ⟨(List.range n).map fun j => { State.reset with stream := j }⟩

/-- NUM_INSTANCES (R9). -/
def Platform.numInstances (p : Platform) : Nat := p.insts.length

/-- NUM_INSTANCES ≥ 1 (R9). -/
def Platform.wellFormed (p : Platform) : Bool := decide (1 ≤ p.numInstances)

/-- One step of the instance at place j; nothing moves where there is no such instance.

DESIGN CHOICE (log 23): the spec gives no rule for a platform's run. Where the step is a READ that faults with
HOST_READ_INVALID, the platform's step ends in that fault: there is no next platform, so every other instance stops too,
and the outcome does not name the instance that faulted. -/
def Platform.stepAt (j : Nat) (p : Platform) : Host.Outcome Platform Fault Refusal :=
  match p.insts[j]? with
  | none => .next p
  | some s =>
    match step s with
    | .next t => .next ⟨p.insts.set j t⟩
    | .fault f => .fault f
    | .refused r => .refused r

end Sys2Proof.Machine
end

