-- ==== Sys2Proof/Machine/Response.lean ====
section
/-!
DEFINITION. The response word RSP (R40): the concatenation of the response registers, and its bytes on a platform's
bus (R46).
-/

namespace Sys2Proof.Machine

/-- All five values, or none if an element holds no value. -/
def allFive {α : Type} : Five (Option α) → Option (Five α)
  | ⟨some x0, some x1, some x2, some x3, some x4⟩ => some ⟨x0, x1, x2, x3, x4⟩
  | _ => none

/-- All nine values, or none if an element holds no value. -/
def allNine {α : Type} : Nine (Option α) → Option (Nine α)
  | ⟨some x0, some x1, some x2, some x3, some x4, some x5, some x6, some x7, some x8⟩ =>
    some ⟨x0, x1, x2, x3, x4, x5, x6, x7, x8⟩
  | _ => none

/-- The response word of given values: STATUS lowest, six reserved bits that read 0, then R0..R4 and C0..C8 (R40). -/
def responseWord (st : BitVec 2) (rv : Limbs) (cv : Coeffs) : BitVec 1480 :=
  cv.c8 ++ (cv.c7 ++ (cv.c6 ++ (cv.c5 ++ (cv.c4 ++ (cv.c3 ++ (cv.c2 ++ (cv.c1 ++ (cv.c0 ++
    (rv.l4 ++ (rv.l3 ++ (rv.l2 ++ (rv.l1 ++ (rv.l0 ++ ((0 : BitVec 6) ++ st))))))))))))))

/-- RSP, where every response register holds a value. -/
def State.response (s : State) : Option (BitVec 1480) :=
  match s.status, allFive s.r, allNine s.c with
  | some st, some rv, some cv => some (responseWord st rv cv)
  | _, _, _ => none

/-- Bit n of RSP, where it is defined: "A field whose register is ⊥ has no defined bits in the response word" (R40). After
an ILLEGAL_CMD response the bits [7:0] are defined and the others are not (log 17). -/
def State.responseBit (s : State) (n : Nat) : Option Bool :=
  if n < 2 then s.status.map fun v => v.getLsbD n
  else if n < 8 then some false
  else if h : n < 328 then (s.r.get ⟨(n - 8) / 64, by omega⟩).map fun v => v.getLsbD ((n - 8) % 64)
  else if h' : n < 1480 then (s.c.get ⟨(n - 328) / 128, by omega⟩).map fun v => v.getLsbD ((n - 328) % 128)
  else none

/-- The 185 bytes of RSP on a byte bus (R46). -/
def responseBytes (order : Config.SerialByteOrder) (w : BitVec 1480) : List Byte := toBytes order 185 w

end Sys2Proof.Machine
end

