-- ==== Sys2Proof/Machine/Script.lean ====
section
/-!
DEFINITION. Host scripts (R97): placing one, and the observation of its run.
-/

namespace Sys2Proof.Machine

/-- A state with a script and an order of moves placed from outside, which is how a program comes to run (log 7). -/
def State.withScript (script : List Directive) (turns : List Turn) (s : State) : State :=
  { s with script := script, turns := turns }

/-- The observation of a run of at most n steps: "the list of values its READs returned, with any recorded fault" (R97).
The run ends after its last directive, and at its first fault, which stays for the whole run (R95, log 13). -/
def State.observe : Nat → State → List FieldValue × Option Fault
  | 0, s => (s.observed, none)
  | n + 1, s =>
    if s.script.isEmpty then (s.observed, none)
    else
      match step s with
      | .next t => State.observe n t
      | .fault f => (s.observed, some f)
      | .refused _ => (s.observed, none)

end Sys2Proof.Machine
end

