-- ==== Sys2Proof/Safety.lean ====
section
/-!
DEFINITION. What holds of every state that a RESET has been through: the invariants that claims use.
-/

namespace Sys2Proof.Machine

/-- The response registers agree with STATUS and with the phase: while a command is in flight no response is shown (R22,
R89), a shown response has a code (R94), only the codes 00 and 01 are ever written (R21, R41), after OK every R and C
element holds a value (R18, R20), and otherwise none does (R24, R100). -/
structure State.Inv (s : State) : Prop where
  busy_shows_nothing : s.phase = .busy → s.rspValid = false
  shown_has_code : s.rspValid = true → s.status ≠ none
  code_is_written : s.status = none ∨ s.status = some statusOk ∨ s.status = some statusIllegalCmd
  ok_has_limbs : s.status = some statusOk → ∀ i, (s.r.get i).isSome = true
  ok_has_coeffs : s.status = some statusOk → ∀ k, (s.c.get k).isSome = true
  else_no_limbs : s.status ≠ some statusOk → s.r = Five.fill none
  else_no_coeffs : s.status ≠ some statusOk → s.c = Nine.fill none

/-- The instance holds this request: BUSY, with the word's fields latched (R13, R15, R16, R17). -/
structure State.Holds (q : Request) (s : State) : Prop where
  busy : s.phase = .busy
  cmd : s.lcmd = reqCmd q
  opA : s.la = reqA q
  opB : s.lb = reqB q

/-- Under OOB_RESULT = datapath every result limb that holds a value is canonical (R18, R63, R93). -/
def State.CanonicalLimbs (s : State) : Prop :=
  s.oobResult = .datapath → ∀ i v, s.r.get i = some v → v.toNat < 2 ^ 52

/-- A safe run of at most n steps: it never faults, so the host read nothing at a wrong time (R95, R98). -/
def State.SafeFor (n : Nat) (s : State) : Prop := (s.observe n).2 = none

end Sys2Proof.Machine
end

