-- ==== Sys2Proof/Certificates/Slice0/Obligations.lean ====
section
/-!
DEFINITION. The statements for the provers, each from the numbered rules of spec/ (OBLIGATIONS.json says which).
-/

open Sys2Proof Sys2Proof.Machine

/-! ## The datapath primitives (40_accumulator_adder.md) -/

/-- R47: the limb pre-adder adds modulo 2^64, is the wrapping sum, and does not depend on the order of its operands. -/
def Obligations.LimbPreAdderAddsModulo2Pow64 : Prop :=
  (∀ xs : List Limb, 2 ≤ xs.length → xs.length ≤ 4 →
    (lsum xs).toNat = (xs.map BitVec.toNat).sum % 2 ^ 64 ∧ lsum xs = xs.sum ∧
    (∀ ys, xs.Perm ys → lsum ys = lsum xs) ∧ ((∀ x ∈ xs, x = 0) → lsum xs = 0)) ∧
  lsum [0xFFFFFFFFFFFFFFFF, 0x1] = 0 ∧
  lsum [0x1111111111111111, 0x2222222222222222, 0x3333333333333333, 0x4444444444444444] = 0xAAAAAAAAAAAAAAAA

/-- R48: a product is exact for every two limbs; it commutes; its corner cases. -/
def Obligations.ProductUnitIsExact : Prop :=
  (∀ x y : Limb, (prod x y).toNat = x.toNat * y.toNat ∧ prod x y = prod y x) ∧
  (∀ y : Limb, prod 0 y = 0 ∧ prod 1 y = y.setWidth 128) ∧
  prod 0xFFFFFFFFFFFFFFFF 0xFFFFFFFFFFFFFFFF = 0xFFFFFFFFFFFFFFFE0000000000000001 ∧
  prod 0x123456789ABCDEF0 0x1111111111111111 = 0x0136B06E70B7420FFEC94F918F48BDF0

/-- R49, R50, R51: the accumulator adds, subtracts and doubles modulo 2^128, with their corner cases. -/
def Obligations.AccumulatorWrapsModulo2Pow128 : Prop :=
  (∀ x y z : Coeff,
    (accAdd x y).toNat = (x.toNat + y.toNat) % 2 ^ 128 ∧
    (accSub x y).toNat = (x.toNat + 2 ^ 128 - y.toNat) % 2 ^ 128 ∧
    (accDbl x).toNat = 2 * x.toNat % 2 ^ 128 ∧ accDbl x = accAdd x x ∧
    accAdd x 0 = x ∧ accAdd x y = accAdd y x ∧ accAdd (accAdd x y) z = accAdd x (accAdd y z) ∧ accSub x x = 0) ∧
  accAdd 0xFFFFFFFFFFFFFFFFFFFFFFFFFFFFFFFF 1 = 0 ∧ accAdd 1 2 = 3 ∧
  accSub 0 1 = 0xFFFFFFFFFFFFFFFFFFFFFFFFFFFFFFFF ∧ accSub 5 3 = 2 ∧
  accDbl 0x80000000000000000000000000000000 = 0 ∧
  accDbl 0x0369D0369D0369D02FC962FC962FC963 = 0x06D3A06D3A06D3A05F92C5F92C5F92C6

/-- R52: whatever the grouping and order, the accumulator computes the exact value modulo 2^128, and the exact value itself
when that lies in [0, 2^128), even where a partial result does not. -/
def Obligations.AccumulatorExpressionIsExactModulo2Pow128 : Prop :=
  ∀ e : AccExpr,
    (e.eval.toNat : Int) = e.exact % 2 ^ 128 ∧
    (0 ≤ e.exact → e.exact < 2 ^ 128 → (e.eval.toNat : Int) = e.exact) ∧
    ∀ f : AccExpr, e.exact = f.exact → e.eval = f.eval

/-! ## The schoolbook multiplier (41_schoolbook.md) -/

/-- R54: Conv_k is the sum of the exact products with i + j = k, and the nine of them, weighted, are the full product. -/
def Obligations.ConvolutionIsTheFullProduct : Prop :=
  ∀ a b : Limbs,
    (∀ k : Fin 9, conv a b k.val =
      ∑ i : Fin 5, ∑ j : Fin 5, if i.val + j.val = k.val then (a.get i).toNat * (b.get j).toNat else 0) ∧
    limbsValue a * limbsValue b = ∑ k : Fin 9, conv a b k.val * 2 ^ (52 * k.val)

/-- R56: every schoolbook coefficient is Conv_k modulo 2^128, for every pair of operands, and Conv_k itself below 2^128,
which InBound guarantees. -/
def Obligations.SchoolbookCoefficientsAreConvolution : Prop :=
  ∀ (a b : Limbs) (k : Fin 9),
    ((sbCoeffs a b).get k).toNat = conv a b k.val % 2 ^ 128 ∧
    (conv a b k.val < 2 ^ 128 → ((sbCoeffs a b).get k).toNat = conv a b k.val) ∧
    (inBound a b = true → ((sbCoeffs a b).get k).toNat = conv a b k.val)

/-- The order of the additions does not matter (R10, R55): accumulating a coefficient's products in any order gives the
same bits. R55's table counts 25 products. -/
def Obligations.SchoolbookAdditionOrderIsFree : Prop :=
  (∀ (a b : Limbs) (k : Fin 9) (ps : List (Fin 5 × Fin 5)), ps.Perm (indexPairs k.val) →
    ps.foldl (fun acc p => accAdd acc (prod (a.get p.1) (b.get p.2))) 0 = (sbCoeffs a b).get k) ∧
  (List.range Config.NCOEFF).map (fun k => (indexPairs k).length) = [1, 2, 3, 4, 5, 4, 3, 2, 1] ∧
  ((List.range Config.NCOEFF).map fun k => (indexPairs k).length).sum = Config.NPROD_SB

/-! ## The carry-propagation unit (42_carry_propagation.md) -/

/-- R61, R62: the two extraction primitives, the fold limb by limb as arithmetic on ℕ, its corner cases and its example. -/
def Obligations.FoldFollowsTheCarryChain : Prop :=
  (∀ t : Coeff, (low52 t).toNat = t.toNat % 2 ^ 52 ∧ (low52 t).extractLsb' 52 12 = 0 ∧
    (shr52 t).toNat = t.toNat / 2 ^ 52 ∧ (shr52 t).toNat ≤ 2 ^ 76 - 1) ∧
  (∀ ci : Five Coeff,
    (fold ci).t.l0 = ci.l0 ∧
    (fold ci).t.l1.toNat = (ci.l1.toNat + (fold ci).k.l0.toNat) % 2 ^ 128 ∧
    (fold ci).t.l2.toNat = (ci.l2.toNat + (fold ci).k.l1.toNat) % 2 ^ 128 ∧
    (fold ci).t.l3.toNat = (ci.l3.toNat + (fold ci).k.l2.toNat) % 2 ^ 128 ∧
    (fold ci).t.l4.toNat = (ci.l4.toNat + (fold ci).k.l3.toNat) % 2 ^ 128 ∧
    ∀ k, ((fold ci).ro.get k).toNat = ((fold ci).t.get k).toNat % 2 ^ 52 ∧
      ((fold ci).k.get k).toNat = ((fold ci).t.get k).toNat / 2 ^ 52) ∧
  (fold ⟨0x10000000000000, 0, 0, 0, 0⟩).ro = ⟨0, 1, 0, 0, 0⟩ ∧
  (fold (Five.fill 0xFFFFFFFFFFFFF)).ro = Five.fill 0xFFFFFFFFFFFFF ∧
  (fold (Five.fill 0xFFFFFFFFFFFFF)).k = Five.fill 0 ∧
  (fold ⟨0x10000000000000, 0xFFFFFFFFFFFFF, 0xFFFFFFFFFFFFF, 0xFFFFFFFFFFFFF, 0xFFFFFFFFFFFFF⟩).ro = Five.fill 0 ∧
  (fold ⟨0x10000000000000, 0xFFFFFFFFFFFFF, 0xFFFFFFFFFFFFF, 0xFFFFFFFFFFFFF, 0xFFFFFFFFFFFFF⟩).k = Five.fill 1 ∧
  (fold ⟨0xFFFFFFFFFFFFFFFFFFFFFFFFFFFFFFFF, 0, 0, 0, 0⟩).ro = ⟨0xFFFFFFFFFFFFF, 0xFFFFFFFFFFFFF, 0xFFFFFF, 0, 0⟩ ∧
  (fold ⟨0, 0, 0, 0, 0x10000000000005⟩).ro = ⟨0, 0, 0, 0, 5⟩ ∧
  (fold ⟨0, 0, 0, 0x10000000000000, 0xFFFFFFFFFFFFFFFFFFFFFFFFFFFFFFFF⟩).t.l4 = 0 ∧
  (fold ⟨0, 0, 0, 0x10000000000000, 0xFFFFFFFFFFFFFFFFFFFFFFFFFFFFFFFF⟩).ro.l4 = 0 ∧
  (fold ⟨0x0136b06e70b7420ffec94f918f48bdf0, 0x037d3b3d840eddeefc82c4c27bf12211, 0x06e70b74211247be0a2a059ceffec953,
      0x0c976679d16d4d6d37acddca72d6f6d7, 0x15b191b61ecbbcec94f918f48bdeedbe⟩).ro =
    ⟨0x094f918f48bdf0, 0x09abcdf01221fd, 0x0ddddddddeefcb, 0x041fdb975654b4, 0x00b60b60bca844⟩ ∧
  (fold ⟨0x0136b06e70b7420ffec94f918f48bdf0, 0x037d3b3d840eddeefc82c4c27bf12211, 0x06e70b74211247be0a2a059ceffec953,
      0x0c976679d16d4d6d37acddca72d6f6d7, 0x15b191b61ecbbcec94f918f48bdeedbe⟩).k =
    ⟨0x136b06e70b7420ffec, 0x37d3b3d840ede02678, 0x6e70b74211247f5ddd, 0xc976679d16d4ddba86, 0x15b191b61ecbbdb60b6⟩

/-- R63: every output limb of the fold is canonical, R4 included, for every input. -/
def Obligations.FoldOutputsAreCanonical : Prop :=
  ∀ (ci : Five Coeff) (k : Fin 5),
    ((fold ci).ro.get k).toNat < 2 ^ 52 ∧ ((fold ci).ro.get k).extractLsb' 52 12 = 0

/-- R66 (its first sentence), R64: when no carried sum wraps, the output limbs are the input's weighted sum modulo 2^260,
and what is dropped is K[4] · 2^260. -/
def Obligations.FoldKeepsTheValueModulo2Pow260 : Prop :=
  ∀ ci : Five Coeff,
    ci.l1.toNat + (fold ci).k.l0.toNat < 2 ^ 128 → ci.l2.toNat + (fold ci).k.l1.toNat < 2 ^ 128 →
    ci.l3.toNat + (fold ci).k.l2.toNat < 2 ^ 128 → ci.l4.toNat + (fold ci).k.l3.toNat < 2 ^ 128 →
    limbsValue (fold ci).ro = (∑ k : Fin 5, (ci.get k).toNat * 2 ^ (52 * k.val)) % 2 ^ 260 ∧
    limbsValue (fold ci).ro + (fold ci).k.l4.toNat * 2 ^ 260 = ∑ k : Fin 5, (ci.get k).toNat * 2 ^ (52 * k.val)

/-- R65: for operands in bound no carried sum wraps, for either multiplier's coefficients: each T[k] is the exact E_k. -/
def Obligations.FoldDoesNotWrapInBound : Prop :=
  ∀ a b : Limbs, inBound a b = true → ∀ cv : Coeffs, cv = sbCoeffs a b ∨ cv = kaCoeffs a b →
    cv.c1.toNat + (fold cv.low).k.l0.toNat < 2 ^ 128 ∧ cv.c2.toNat + (fold cv.low).k.l1.toNat < 2 ^ 128 ∧
    cv.c3.toNat + (fold cv.low).k.l2.toNat < 2 ^ 128 ∧ cv.c4.toNat + (fold cv.low).k.l3.toNat < 2 ^ 128 ∧
    (fold cv.low).t.l1.toNat = cv.c1.toNat + (fold cv.low).k.l0.toNat ∧
    (fold cv.low).t.l2.toNat = cv.c2.toNat + (fold cv.low).k.l1.toNat ∧
    (fold cv.low).t.l3.toNat = cv.c3.toNat + (fold cv.low).k.l2.toNat ∧
    (fold cv.low).t.l4.toNat = cv.c4.toNat + (fold cv.low).k.l3.toNat ∧
    ∀ k : Fin 5, ((fold cv.low).t.get k).toNat = exactCarried a b k.val

/-! ## The Karatsuba multiplier and the bound (43_karatsuba.md) -/

/-- R68, R69: the nine group sums of each operand, modulo 2^64, and the fourteen products; under condition (a) the group sums
are exact, so that each product is the integer product of its source formula. -/
def Obligations.KaratsubaProductsOfGroupSums : Prop :=
  (∀ x : Limbs,
    (groupSums x).g2 = x.l0 + x.l1 ∧ (groupSums x).g4 = x.l0 + x.l2 ∧
    (groupSums x).g5 = x.l0 + x.l1 + x.l2 + x.l3 ∧ (groupSums x).g6 = x.l1 + x.l3 ∧
    (groupSums x).g7 = x.l0 + x.l2 + x.l4 ∧ (groupSums x).g9 = x.l1 + x.l3 + x.l4 ∧
    (groupSums x).g11 = x.l2 + x.l3 ∧ (groupSums x).g13 = x.l2 + x.l4 ∧ (groupSums x).g14 = x.l3 + x.l4) ∧
  (∀ a b : Limbs, boundA a b = true → ∀ x, x = a ∨ x = b →
    (groupSums x).g2.toNat = x.l0.toNat + x.l1.toNat ∧ (groupSums x).g4.toNat = x.l0.toNat + x.l2.toNat ∧
    (groupSums x).g5.toNat = x.l0.toNat + x.l1.toNat + x.l2.toNat + x.l3.toNat ∧
    (groupSums x).g6.toNat = x.l1.toNat + x.l3.toNat ∧
    (groupSums x).g7.toNat = x.l0.toNat + x.l2.toNat + x.l4.toNat ∧
    (groupSums x).g9.toNat = x.l1.toNat + x.l3.toNat + x.l4.toNat ∧
    (groupSums x).g11.toNat = x.l2.toNat + x.l3.toNat ∧ (groupSums x).g13.toNat = x.l2.toNat + x.l4.toNat ∧
    (groupSums x).g14.toNat = x.l3.toNat + x.l4.toNat) ∧
  ∀ a b : Limbs,
    (kaProducts a b).p1.toNat = a.l0.toNat * b.l0.toNat ∧
    (kaProducts a b).p2.toNat = (groupSums a).g2.toNat * (groupSums b).g2.toNat ∧
    (kaProducts a b).p3.toNat = a.l1.toNat * b.l1.toNat ∧
    (kaProducts a b).p4.toNat = (groupSums a).g4.toNat * (groupSums b).g4.toNat ∧
    (kaProducts a b).p5.toNat = (groupSums a).g5.toNat * (groupSums b).g5.toNat ∧
    (kaProducts a b).p6.toNat = (groupSums a).g6.toNat * (groupSums b).g6.toNat ∧
    (kaProducts a b).p7.toNat = (groupSums a).g7.toNat * (groupSums b).g7.toNat ∧
    (kaProducts a b).p8.toNat = a.l4.toNat * b.l4.toNat ∧
    (kaProducts a b).p9.toNat = (groupSums a).g9.toNat * (groupSums b).g9.toNat ∧
    (kaProducts a b).p10.toNat = a.l2.toNat * b.l2.toNat ∧
    (kaProducts a b).p11.toNat = (groupSums a).g11.toNat * (groupSums b).g11.toNat ∧
    (kaProducts a b).p12.toNat = a.l3.toNat * b.l3.toNat ∧
    (kaProducts a b).p13.toNat = (groupSums a).g13.toNat * (groupSums b).g13.toNat ∧
    (kaProducts a b).p14.toNat = (groupSums a).g14.toNat * (groupSums b).g14.toNat

/-- R72–R80 with S1 and S3 (R70, R71) put in: each coefficient as the source's formula, in arithmetic modulo 2^128. -/
def Obligations.KaratsubaReconstructionFormulas : Prop :=
  ∀ p : Products,
    p.coeffs.c0 = p.p1 ∧
    p.coeffs.c1 = p.p2 - (p.p1 + p.p3) ∧
    p.coeffs.c2 = p.p3 + p.p4 - p.p1 - p.p10 ∧
    p.coeffs.c3 = p.p5 - p.p2 + (p.p1 + p.p3) - p.p4 - p.p6 - p.p11 + p.p10 + p.p12 ∧
    p.coeffs.c4 = p.p7 - p.p4 + p.p6 - p.p3 - p.p13 + 2 * p.p10 - p.p12 ∧
    p.coeffs.c5 = p.p9 - p.p6 + p.p11 - p.p10 - p.p14 ∧
    p.coeffs.c6 = p.p13 + p.p12 - (p.p10 + p.p8) ∧
    p.coeffs.c7 = p.p14 - p.p12 - p.p8 ∧
    p.coeffs.c8 = p.p8

/-- R82: in bound, every Karatsuba coefficient is the direct convolution. -/
def Obligations.KaratsubaCoefficientIdentity : Prop :=
  ∀ a b : Limbs, inBound a b = true → ∀ k : Fin 9, ((kaCoeffs a b).get k).toNat = conv a b k.val

/-- R85: outside condition (a) the two datapaths disagree: the rule's own operands, with the values it gives. -/
def Obligations.DatapathsDisagreeOutsideConditionA : Prop :=
  boundA ⟨0x8000000000000000, 0x8000000000000000, 0, 0, 0⟩ ⟨1, 1, 0, 0, 0⟩ = false ∧
  (groupSums ⟨0x8000000000000000, 0x8000000000000000, 0, 0, 0⟩).g2 = 0 ∧
  (kaProducts ⟨0x8000000000000000, 0x8000000000000000, 0, 0, 0⟩ ⟨1, 1, 0, 0, 0⟩).p2 = 0 ∧
  (kaCoeffs ⟨0x8000000000000000, 0x8000000000000000, 0, 0, 0⟩ ⟨1, 1, 0, 0, 0⟩).c1 = 0xFFFFFFFFFFFFFFFF0000000000000000 ∧
  (sbCoeffs ⟨0x8000000000000000, 0x8000000000000000, 0, 0, 0⟩ ⟨1, 1, 0, 0, 0⟩).c1 = 0x10000000000000000 ∧
  (fold (sbCoeffs ⟨0x8000000000000000, 0x8000000000000000, 0, 0, 0⟩ ⟨1, 1, 0, 0, 0⟩).low).ro = ⟨0, 0x800, 0x1000, 0x800, 0⟩ ∧
  (fold (kaCoeffs ⟨0x8000000000000000, 0x8000000000000000, 0, 0, 0⟩ ⟨1, 1, 0, 0, 0⟩).low).ro = ⟨0, 0x800, 0xFFFFFFFFFF000, 0x10007FF, 0⟩

/-- R81: InBound is (a), (b) and (c); (b) follows from (a) and adds no condition; (c) as the rule writes it. -/
def Obligations.InBoundIsItsConditions : Prop :=
  ∀ a b : Limbs,
    (inBound a b = true ↔
      (∀ g ∈ groups, exactGroupSum a g < 2 ^ 64 ∧ exactGroupSum b g < 2 ^ 64) ∧
      (∀ k, k ≤ 8 → conv a b k < 2 ^ 128) ∧ (∀ k, k ≤ 4 → exactCarried a b k < 2 ^ 128)) ∧
    (boundA a b = true → boundB a b = true) ∧
    exactCarried a b 0 = conv a b 0 ∧ ∀ k, exactCarried a b (k + 1) = conv a b (k + 1) + exactCarried a b k / 2 ^ 52

/-- R81, sufficient conditions: every limb of A and B below 2^62, and so below 2^61, is enough. -/
def Obligations.SixtyTwoBitLimbsAreInBound : Prop :=
  ∀ a b : Limbs, (∀ i, (a.get i).toNat < 2 ^ 62 ∧ (b.get i).toNat < 2 ^ 62) → inBound a b = true

/-! ## The two commands -/

/-- R58, with its frame: `mul.sb` answers a next state for every operand pair and every state. In bound, or under
`datapath`, R is the fold of SB_C[0..4] and C is SB_C; else R and C are free values. STATUS is OK, RSP_VALID 1, PHASE IDLE,
and nothing else changes but the count of free values, whose numbering is the model's (log 4). -/
def Obligations.MulSbCompletes : Prop :=
  ∀ (a b : Limbs) (s : State),
    (inBound a b = true ∨ s.oobResult = .datapath →
      exec (.mulSb a b) s = .next { s with
        status := some 0b00, r := (fold (sbCoeffs a b).low).ro.map some, c := (sbCoeffs a b).map some,
        rspValid := true, phase := .idle }) ∧
    (inBound a b = false → s.oobResult = .any →
      exec (.mulSb a b) s = .next { s with
        status := some 0b00, r := (Config.drawLimbs (.command (.mulSb a b)) s.stream s.draws).map some,
        c := (Config.drawCoeffs (.command (.mulSb a b)) s.stream (s.draws + 5)).map some,
        rspValid := true, phase := .idle, draws := s.draws + 14 })

/-- R83, with its frame: `mul.ka` answers a next state for every operand pair and every state, as `mul.sb` does but with
KA_C for SB_C. -/
def Obligations.MulKaCompletes : Prop :=
  ∀ (a b : Limbs) (s : State),
    (inBound a b = true ∨ s.oobResult = .datapath →
      exec (.mulKa a b) s = .next { s with
        status := some 0b00, r := (fold (kaCoeffs a b).low).ro.map some, c := (kaCoeffs a b).map some,
        rspValid := true, phase := .idle }) ∧
    (inBound a b = false → s.oobResult = .any →
      exec (.mulKa a b) s = .next { s with
        status := some 0b00, r := (Config.drawLimbs (.command (.mulKa a b)) s.stream s.draws).map some,
        c := (Config.drawCoeffs (.command (.mulKa a b)) s.stream (s.draws + 5)).map some,
        rspValid := true, phase := .idle, draws := s.draws + 14 })

/-- The frame of both commands: when one answers a next state, the latches, OOB_RESULT and the host's side are unchanged
(R12: COMPLETE writes PHASE, R, C, STATUS and RSP_VALID only), and STATUS is OK, RSP_VALID 1, PHASE IDLE. -/
def Obligations.CommandsChangeOnlyTheResponse : Prop :=
  ∀ (i : Instr) (s : State), ∃ t, exec i s = .next t ∧
    t.lcmd = s.lcmd ∧ t.la = s.la ∧ t.lb = s.lb ∧ t.oobResult = s.oobResult ∧ t.script = s.script ∧ t.turns = s.turns ∧
    t.observed = s.observed ∧ t.checks = s.checks ∧ t.stream = s.stream ∧
    t.phase = .idle ∧ t.rspValid = true ∧ t.status = some statusOk

/-- R66: in bound, both commands deliver limbs with `value(R) = value(A) · value(B) mod 2^260`, each limb canonical: the
canonical radix-2^52 form of the low 260 bits of the exact product. -/
def Obligations.ProductModulo2Pow260 : Prop :=
  ∀ (a b : Limbs) (i : Instr) (s : State), i = .mulSb a b ∨ i = .mulKa a b → inBound a b = true →
    ∃ t rv, exec i s = .next t ∧ t.r = rv.map some ∧
      limbsValue rv = limbsValue a * limbsValue b % 2 ^ 260 ∧ ∀ k, (rv.get k).toNat < 2 ^ 52

/-- R82 and R56 at the registers: in bound, both commands deliver the exact convolution in C[0..8], C5..C8 included. -/
def Obligations.CoefficientRegistersHoldConvolution : Prop :=
  ∀ (a b : Limbs) (i : Instr) (s : State), i = .mulSb a b ∨ i = .mulKa a b → inBound a b = true →
    ∃ t, exec i s = .next t ∧ ∀ k : Fin 9, t.c.get k = some (BitVec.ofNat 128 (conv a b k.val)) ∧ conv a b k.val < 2 ^ 128

/-- R84: in bound, the two commands give the same next state, bit for bit. "The datapaths agree more widely": under condition
(a) alone the two multipliers give the same coefficients, each Conv_k modulo 2^128, and so the same limbs. -/
def Obligations.CommandsAreEquivalentInBound : Prop :=
  (∀ (a b : Limbs) (s : State), inBound a b = true →
    exec (.mulKa a b) s = exec (.mulSb a b) s ∧
    ∃ t, exec (.mulKa a b) s = .next t ∧ t.c = (sbCoeffs a b).map some ∧
      t.r = (fold (sbCoeffs a b).low).ro.map some) ∧
  ∀ a b : Limbs, boundA a b = true →
    kaCoeffs a b = sbCoeffs a b ∧ fold (kaCoeffs a b).low = fold (sbCoeffs a b).low ∧
    ∀ k : Fin 9, ((kaCoeffs a b).get k).toNat = conv a b k.val % 2 ^ 128

/-- R86: both commands commute and absorb zero, in bound or under `datapath`; under `any`, zero with an out-of-bound operand
gives free values, numbered as the model numbers them (log 4): each command and each order of operands has its own. -/
def Obligations.CommandsCommuteAndAbsorbZero : Prop :=
  (∀ (a b : Limbs) (s : State), inBound a b = true ∨ s.oobResult = .datapath →
    exec (.mulSb a b) s = exec (.mulSb b a) s ∧ exec (.mulKa a b) s = exec (.mulKa b a) s) ∧
  (∀ (a b : Limbs) (i : Instr) (s : State), i = .mulSb a b ∨ i = .mulKa a b → a = Five.fill 0 ∨ b = Five.fill 0 →
    inBound a b = true ∨ s.oobResult = .datapath →
    ∃ t, exec i s = .next t ∧ t.r = Five.fill (some 0) ∧ t.c = Nine.fill (some 0)) ∧
  (∀ (a b : Limbs) (i : Instr) (s : State), i = .mulSb a b ∨ i = .mulKa a b → a = Five.fill 0 ∨ b = Five.fill 0 →
    inBound a b = false → s.oobResult = .any →
    ∃ t, exec i s = .next t ∧ (∀ j, t.r.get j = some (Config.drawLimb (.command i) s.stream (s.draws + j.val))) ∧
      ∀ k, t.c.get k = some (Config.drawCoeff (.command i) s.stream (s.draws + 5 + k.val)))

/-- The corner cases of R58 and R83, for both commands, in every state: a limb of 2^52, the dropped top product with its
coefficient in C8 and none in C6, one 64-bit limb squared. -/
def Obligations.CommandCornerCases : Prop :=
  ∀ s : State,
    (∀ i, i = .mulSb ⟨0x10000000000000, 0, 0, 0, 0⟩ ⟨1, 0, 0, 0, 0⟩ ∨ i = .mulKa ⟨0x10000000000000, 0, 0, 0, 0⟩ ⟨1, 0, 0, 0, 0⟩ →
      ∃ t, exec i s = .next t ∧ t.r = (⟨0, 1, 0, 0, 0⟩ : Limbs).map some ∧
        t.c = (⟨0x10000000000000, 0, 0, 0, 0, 0, 0, 0, 0⟩ : Coeffs).map some) ∧
    (∀ i, i = .mulSb ⟨0, 0, 0, 0, 1⟩ ⟨0, 0, 0, 0, 1⟩ ∨ i = .mulKa ⟨0, 0, 0, 0, 1⟩ ⟨0, 0, 0, 0, 1⟩ →
      ∃ t, exec i s = .next t ∧ t.r = (Five.fill 0 : Limbs).map some ∧
        t.c = (⟨0, 0, 0, 0, 0, 0, 0, 0, 1⟩ : Coeffs).map some) ∧
    ∀ i, i = .mulSb ⟨0xFFFFFFFFFFFFFFFF, 0, 0, 0, 0⟩ ⟨0xFFFFFFFFFFFFFFFF, 0, 0, 0, 0⟩ ∨
        i = .mulKa ⟨0xFFFFFFFFFFFFFFFF, 0, 0, 0, 0⟩ ⟨0xFFFFFFFFFFFFFFFF, 0, 0, 0, 0⟩ →
      ∃ t, exec i s = .next t ∧ t.r = (⟨0x1, 0xFFFFFFFFFE000, 0xFFFFFF, 0, 0⟩ : Limbs).map some

/-- 95_test_vectors.md section 1: the source's worked example, for both commands, in every state. -/
def Obligations.ConcreteScenario : Prop :=
  ∀ (s : State) (i : Instr),
    i = .mulSb ⟨0x123456789ABCDEF0, 0x0FEDCBA987654321, 0x1111111111111111, 0x2222222222222222, 0x3333333333333333⟩
          ⟨0x1111111111111111, 0x2222222222222222, 0x3333333333333333, 0x4444444444444444, 0x5555555555555555⟩ ∨
    i = .mulKa ⟨0x123456789ABCDEF0, 0x0FEDCBA987654321, 0x1111111111111111, 0x2222222222222222, 0x3333333333333333⟩
          ⟨0x1111111111111111, 0x2222222222222222, 0x3333333333333333, 0x4444444444444444, 0x5555555555555555⟩ →
    ∃ t, exec i s = .next t ∧
      t.r = ⟨some 0x094f918f48bdf0, some 0x09abcdf01221fd, some 0x0ddddddddeefcb, some 0x041fdb975654b4,
        some 0x00b60b60bca844⟩ ∧
      t.c.c6 = some 0x1907f6e5d4c3b2a15e6f8091a2b3c4d6

/-! ## Encoding (30_encoding.md) -/

/-- R37, R38 (and R39's 254 values): CMD's two fields, its decode on all 256 values, and that decoding looks at CMD only. -/
def Obligations.CommandDecodeIsTotal : Prop :=
  (∀ cmd : Byte,
    cmdAlg cmd = cmd.extractLsb' 0 2 ∧ cmdRsvd cmd = cmd.extractLsb' 2 6 ∧
    (decodeCmd cmd = .mulSb ↔ cmd = 0x00) ∧ (decodeCmd cmd = .mulKa ↔ cmd = 0x01) ∧
    (decodeCmd cmd = .mulSb ↔ cmdRsvd cmd = 0 ∧ cmdAlg cmd = 0b00) ∧
    (decodeCmd cmd = .mulKa ↔ cmdRsvd cmd = 0 ∧ cmdAlg cmd = 0b01) ∧
    (decodeCmd cmd = .illegal ↔ cmdRsvd cmd ≠ 0 ∨ cmdAlg cmd = 0b10 ∨ cmdAlg cmd = 0b11)) ∧
  ((List.range 256).filter fun n => decodeCmd (BitVec.ofNat 8 n) == .illegal).length = 254 ∧
  ∀ q : Request,
    (decodeCmd (reqCmd q) = .mulSb → decode q = .ok (.mulSb (reqA q) (reqB q))) ∧
    (decodeCmd (reqCmd q) = .mulKa → decode q = .ok (.mulKa (reqA q) (reqB q))) ∧
    (decodeCmd (reqCmd q) = .illegal → decode q = .error (.illegalCmd (reqCmd q)))

/-- R36, R44: every field of an assembled request word is at its bits, and no bit is unused: a word is its fields
assembled. -/
def Obligations.RequestFieldsAtTheirBits : Prop :=
  (∀ (cmd : Byte) (a b : Limbs),
    (assemble cmd a b).extractLsb' 0 8 = cmd ∧
    (∀ i : Fin 5, (assemble cmd a b).extractLsb' (8 + 64 * i.val) 64 = a.get i) ∧
    ∀ i : Fin 5, (assemble cmd a b).extractLsb' (328 + 64 * i.val) 64 = b.get i) ∧
  ∀ q : Request, assemble (reqCmd q) (reqA q) (reqB q) = q

/-- Decoding the request word of an instruction gives the instruction back, with every operand at every value. -/
def Obligations.DecodeOfEncode : Prop :=
  ∀ i : Instr, i.wellFormed = true → decode (encode i) = .ok i

/-- A request word that decodes to an instruction is that instruction's word; one that does not has an illegal CMD and is
no instruction's word. -/
def Obligations.EncodeOfDecode : Prop :=
  (∀ (q : Request) (i : Instr), decode q = .ok i → encode i = q ∧ i.wellFormed = true) ∧
  ∀ (q : Request) (e : DecodeError), decode q = .error e → e = .illegalCmd (reqCmd q) ∧ ∀ i : Instr, encode i ≠ q

/-- Request words written out from R36 decode to what they stand for (95_test_vectors.md section 7). -/
def Obligations.WrittenOutWordsDecode : Prop :=
  decode 0x555555555555555544444444444444443333333333333333222222222222222211111111111111113333333333333333222222222222222211111111111111110fedcba987654321123456789abcdef000 =
    .ok (.mulSb ⟨0x123456789ABCDEF0, 0x0FEDCBA987654321, 0x1111111111111111, 0x2222222222222222, 0x3333333333333333⟩
      ⟨0x1111111111111111, 0x2222222222222222, 0x3333333333333333, 0x4444444444444444, 0x5555555555555555⟩) ∧
  decode 0x000000000000000100000000000000020000000000000003000000000000000400000000000000050000000000000000000000000000000000000000000000000000000000000000000000000000000101 =
    .ok (.mulKa ⟨1, 0, 0, 0, 0⟩ ⟨5, 4, 3, 2, 1⟩) ∧
  decode 0x80 = .error (.illegalCmd 0x80)

/-- R46: byte j of a request under `little` is REQ[8j+7 : 8j], and byte 0 is CMD; under `big` the order is reversed; and
under either order the bytes of a request decode as the word does. A request has no other length (R43). That RSP
is split in the same way is the model's inference (log 10). -/
def Obligations.SerialisedRequestDecodes : Prop :=
  (∀ (q : Request) (j : Nat), j < 81 →
    (requestBytes .little q)[j]? = some (q.extractLsb' (8 * j) 8) ∧
    (requestBytes .big q)[j]? = some (q.extractLsb' (8 * (80 - j)) 8)) ∧
  (∀ q : Request, (requestBytes .little q)[0]? = some (reqCmd q)) ∧
  (∀ (w : BitVec 1480) (j : Nat), j < 185 →
    (responseBytes .little w)[j]? = some (w.extractLsb' (8 * j) 8) ∧
    (responseBytes .big w)[j]? = some (w.extractLsb' (8 * (184 - j)) 8)) ∧
  (∀ (order : Config.SerialByteOrder) (q : Request), decodeBytes order (requestBytes order q) = decode q) ∧
  ∀ (order : Config.SerialByteOrder) (bs : List Byte), bs.length ≠ 81 →
    decodeBytes order bs = .error (.wrongLength bs.length)

/-- R40: every field of the response word is at its bits and the reserved bits read 0; bit by bit, a register that holds no
value has no defined bits; and RSP is those bits. -/
def Obligations.ResponseFieldsAtTheirBits : Prop :=
  (∀ (st : BitVec 2) (rv : Limbs) (cv : Coeffs),
    (responseWord st rv cv).extractLsb' 0 2 = st ∧ (responseWord st rv cv).extractLsb' 2 6 = 0 ∧
    (∀ i : Fin 5, (responseWord st rv cv).extractLsb' (8 + 64 * i.val) 64 = rv.get i) ∧
    ∀ k : Fin 9, (responseWord st rv cv).extractLsb' (328 + 128 * k.val) 128 = cv.get k) ∧
  (∀ s : State,
    (∀ j, j < 2 → s.responseBit j = s.status.map fun v => v.getLsbD j) ∧
    (∀ j, 2 ≤ j → j < 8 → s.responseBit j = some false) ∧
    (∀ (i : Fin 5) (j : Nat), j < 64 → s.responseBit (8 + 64 * i.val + j) = (s.r.get i).map fun v => v.getLsbD j) ∧
    ∀ (k : Fin 9) (j : Nat), j < 128 → s.responseBit (328 + 128 * k.val + j) = (s.c.get k).map fun v => v.getLsbD j) ∧
  (∀ (s : State) (st : BitVec 2) (rv : Limbs) (cv : Coeffs), s.status = some st → s.r = rv.map some →
    s.c = cv.map some → s.response = some (responseWord st rv cv)) ∧
  ∀ (s : State) (w : BitVec 1480), s.response = some w → ∀ n, n < 1480 → s.responseBit n = some (w.getLsbD n)

/-- R44: a well-formed request line assembles to exactly one request word, `mul.sb` with CMD 0x00, `mul.ka` with 0x01,
`.cmd` with its byte; a line with a wrong count, a limb of 2^64 or more or a byte of 2^8 or more does not assemble.
That an `expect` whose value is too wide for its field does not either is the model's choice (log 24). -/
def Obligations.RequestLinesAssemble : Prop :=
  (∀ (cmd : Byte) (a b : Limbs),
    let xs := a.toList.map BitVec.toNat
    let ys := b.toList.map BitVec.toNat
    (SourceLine.mulSb xs ys).lower = some (.request (assemble 0x00 a b)) ∧
    (SourceLine.mulKa xs ys).lower = some (.request (assemble 0x01 a b)) ∧
    (SourceLine.cmd cmd.toNat xs ys).lower = some (.request (assemble cmd a b))) ∧
  ∀ l : SourceLine, (l.wellFormed = true ↔ ∃ d, l.lower = some d)

/-! ## Transactions, reset and exceptions (44, 60, 70) -/

/-- R24, for the state right after reset: PHASE, REQ_READY, RSP_VALID, STATUS, R and C. -/
def Obligations.ResetStateHoldsResetValues : Prop :=
  State.reset.phase = .idle ∧ State.reset.reqReady = true ∧ State.reset.rspValid = false ∧ State.reset.status = none ∧
  State.reset.r = Five.fill none ∧ State.reset.c = Nine.fill none

/-- R113, R24: whenever the host asserts RESET at its move, in every state, the step is a RESET: it takes one step, gives the
reset values, and touches neither OOB_RESULT nor what the host has read. RESET is enabled in every state: whatever the
instance holds, a host that moves next can assert it. -/
def Obligations.ResetStepGivesResetValues : Prop :=
  (∀ (s : State) (p : Option Request) (rest : List Directive), s.script = .reset p :: rest → s.blockMoves = false →
    ∃ t, step s = .next t ∧ t.phase = .idle ∧ t.reqReady = true ∧ t.rspValid = false ∧ t.status = none ∧
      t.r = Five.fill none ∧ t.c = Nine.fill none ∧
      t.script = rest ∧ t.oobResult = s.oobResult ∧ t.observed = s.observed ∧ t.checks = s.checks) ∧
  ∀ (s : State) (rest : List Directive) (ts : List Turn),
    (s.withScript (.reset none :: rest) (.host :: ts)).stepKind = .reset

/-- R115: a RESET while BUSY abandons the command, and RSP_VALID, once 0, becomes 1 only at a COMPLETE. -/
def Obligations.ResetAbandonsTheCommand : Prop :=
  (∀ (s : State) (p : Option Request) (rest : List Directive), s.phase = .busy → s.script = .reset p :: rest →
    s.blockMoves = false → ∃ t, step s = .next t ∧ t.phase = .idle ∧ t.rspValid = false ∧ t.status = none) ∧
  ∀ s t : State, step s = .next t → s.rspValid = false → t.rspValid = true → s.stepKind = .complete ∧ s.phase = .busy

/-- R104 (1), R120: where RESET and a COMPLETE, or RESET and a presented request, are due at the same point, the step is the
RESET, the request is not accepted and the instance ends IDLE. Where no RESET is asserted there, COMPLETE is taken and the
host's directive waits: R88 fixes no such order, and this one is the model's choice, as is holding events at the same point
as data (log 11). -/
def Obligations.ResetWinsOverSimultaneousSteps : Prop :=
  (∀ (s : State) (p : Option Request) (rest : List Directive) (ts : List Turn), s.phase = .busy →
    s.script = .reset p :: rest → s.turns = .both :: ts →
    s.stepKind = .reset ∧ ∃ t, step s = .next t ∧ t.phase = .idle ∧ t.rspValid = false) ∧
  (∀ (s : State) (q : Request) (rest : List Directive), s.phase = .idle → s.script = .reset (some q) :: rest →
    s.stepKind = .reset ∧ ∃ t, step s = .next t ∧ t.phase = .idle ∧ t.rspValid = false) ∧
  ∀ (s : State) (d : Directive) (rest : List Directive) (ts : List Turn), s.phase = .busy → s.script = d :: rest →
    s.turns = .both :: ts → (∀ p, d ≠ .reset p) →
    s.stepKind = .complete ∧ ∃ t, step s = .next t ∧ t.script = s.script ∧ t.phase = .idle

/-- R89: ACCEPT latches the whole word whatever its CMD, sets PHASE = BUSY, clears RSP_VALID and keeps R, C and STATUS, for
a held request line and for an offered word. -/
def Obligations.AcceptLatchesTheRequest : Prop :=
  ∀ (s : State) (d : Directive) (q : Request) (rest : List Directive), d = .request q ∨ d = .offer q →
    s.script = d :: rest → s.phase = .idle →
    step s = .next { s with
      lcmd := q.extractLsb' 0 8
      la := Five.tabulate fun i => q.extractLsb' (8 + 64 * i.val) 64
      lb := Five.tabulate fun i => q.extractLsb' (328 + 64 * i.val) 64
      phase := .busy, rspValid := false, script := rest }

/-- R90: a request presented while BUSY, at the host's move, has no effect on the instance, REQ_READY is 0, and the host
goes on presenting a held one or has withdrawn an offered one. COMPLETE lifts the hold, and so does a RESET: the request
still presented is accepted next. -/
def Obligations.BusyInstanceHoldsRequests : Prop :=
  ∀ (s : State) (q : Request) (rest : List Directive), s.phase = .busy →
    s.reqReady = false ∧
    (s.blockMoves = false → s.script = .request q :: rest → step s = .next { s with turns := s.turns.tail }) ∧
    (s.blockMoves = false → s.script = .offer q :: rest →
      step s = .next { s with turns := s.turns.tail, script := rest }) ∧
    (s.blockMoves = true → s.script = .request q :: rest →
      ∃ t, step s = .next t ∧ t.reqReady = true ∧ t.stepKind = .accept q) ∧
    (s.blockMoves = false → s.script = .reset (some q) :: .request q :: rest →
      ∃ t, step s = .next t ∧ t.reqReady = true ∧ t.stepKind = .accept q)

/-- R112: an idle instance holds its state until the next request or RESET: a step that is neither ACCEPT nor RESET changes
no register, and with nothing asked of it a step changes nothing at all. -/
def Obligations.IdleInstanceHoldsItsState : Prop :=
  (∀ s t : State, s.phase = .idle → step s = .next t → (∀ q, s.stepKind ≠ .accept q) → s.stepKind ≠ .reset →
    t.phase = .idle ∧ t.lcmd = s.lcmd ∧ t.la = s.la ∧ t.lb = s.lb ∧ t.r = s.r ∧ t.c = s.c ∧ t.status = s.status ∧
    t.rspValid = s.rspValid) ∧
  ∀ s : State, s.phase = .idle → s.script = [] → step s = .next s

/-- A step runs the decoded instruction: when COMPLETE is due and the latches hold an accepted word that decodes to i, the
step is exec of i, with the turn that passes (R91); and so it is right after the word is accepted and placed. -/
def Obligations.StepRunsTheDecodedInstruction : Prop :=
  (∀ (s : State) (q : Request) (i : Instr), s.blockMoves = true → s.lcmd = reqCmd q → s.la = reqA q → s.lb = reqB q →
    decode q = .ok i → step s = exec i { s with turns := s.turns.tail }) ∧
  (∀ (s : State) (q : Request) (i : Instr), decode q = .ok i → step (s.withRequest q) = exec i (s.accept q)) ∧
  ∀ (s : State) (nbits w : Nat) (i : Instr), decodeTableWord nbits w = some i →
    step (s.withFetchWord nbits w) = exec i (s.accept (tableRequest nbits w))

/-- R100, R104 (2): COMPLETE of any other CMD gives ILLEGAL_CMD whatever the operands: STATUS = 01, R and C hold no value,
RSP_VALID = 1, PHASE = IDLE; nothing else changes but the turn that passes; a READ of R or C then faults; and the next
request is accepted normally. -/
def Obligations.IllegalCommandResponse : Prop :=
  ∀ s : State, s.blockMoves = true → s.lcmd ≠ 0x00 → s.lcmd ≠ 0x01 →
    ∃ t, step s = .next t ∧
      t = { s with
        turns := s.turns.tail, status := some 0b01, r := Five.fill none, c := Nine.fill none,
        rspValid := true, phase := .idle } ∧
      (∀ i, t.readField (.r i) = none) ∧ (∀ k, t.readField (.c k) = none) ∧
      t.readField .status = some (.code 0b01) ∧
      ∀ (q : Request) (rest : List Directive), t.script = .request q :: rest → t.stepKind = .accept q

/-- R93, R103: out-of-bound operands are not signalled. Both commands complete with STATUS = OK: under `any` each R[i] and
each C[k] is a free value of its own, numbered as the model
numbers them (log 4), under `datapath` the wrapped value of the command's datapath. -/
def Obligations.OutOfBoundIsNotSignalled : Prop :=
  ∀ (a b : Limbs) (i : Instr) (cv : Coeffs) (s : State),
    i = .mulSb a b ∧ cv = sbCoeffs a b ∨ i = .mulKa a b ∧ cv = kaCoeffs a b → inBound a b = false →
    ∃ t, exec i s = .next t ∧ t.status = some 0b00 ∧ t.rspValid = true ∧ t.phase = .idle ∧
      (s.oobResult = .any →
        (∀ j : Fin 5, t.r.get j = some (Config.drawLimb (.command i) s.stream (s.draws + j.val))) ∧
        ∀ k : Fin 9, t.c.get k = some (Config.drawCoeff (.command i) s.stream (s.draws + 5 + k.val))) ∧
      (s.oobResult = .datapath →
        (∀ j : Fin 5, t.r.get j = some ((fold cv.low).ro.get j)) ∧ ∀ k : Fin 9, t.c.get k = some (cv.get k))

/-- R92, R3: fix LCMD, LA, LB, OOB_RESULT and the draw; then the response is fixed, whatever else differs. -/
def Obligations.ResponseDependsOnTheRequestAlone : Prop :=
  ∀ s1 s2 : State, s1.lcmd = s2.lcmd → s1.la = s2.la → s1.lb = s2.lb → s1.oobResult = s2.oobResult →
    (∀ i : Instr, s1.latched = .ok i → s1.freeLimbs i = s2.freeLimbs i ∧ s1.freeCoeffs i = s2.freeCoeffs i) →
    ∃ t1 t2, complete s1 = .next t1 ∧ complete s2 = .next t2 ∧
      t1.status = t2.status ∧ t1.r = t2.r ∧ t1.c = t2.c ∧ t1.rspValid = t2.rspValid ∧ t1.phase = t2.phase

/-- R95: what a READ returns and when it is the fault HOST_READ_INVALID; a READ changes no state of the instance; a fault stays
for the whole run. -/
def Obligations.ReadReturnsOrFaults : Prop :=
  (∀ s : State,
    s.readField .reqReady = some (.flag s.reqReady) ∧ s.readField .rspValid = some (.flag s.rspValid) ∧
    (∀ v, s.readField .status = some v ↔ s.rspValid = true ∧ ∃ x, s.status = some x ∧ v = .code x) ∧
    (∀ i v, s.readField (.r i) = some v ↔ s.rspValid = true ∧ ∃ x, s.r.get i = some x ∧ v = .limb x) ∧
    (∀ k v, s.readField (.c k) = some v ↔ s.rspValid = true ∧ ∃ x, s.c.get k = some x ∧ v = .coeff x)) ∧
  (∀ (s : State) (f : Field) (v : FieldValue), s.stepKind = .read f → s.readField f = some v →
    ∃ t, step s = .next t ∧ t.observed = s.observed ++ [v] ∧
      t.phase = s.phase ∧ t.lcmd = s.lcmd ∧ t.la = s.la ∧ t.lb = s.lb ∧ t.r = s.r ∧ t.c = s.c ∧
      t.status = s.status ∧ t.rspValid = s.rspValid ∧ t.oobResult = s.oobResult ∧ t.draws = s.draws ∧ t.stream = s.stream) ∧
  ∀ (s : State) (f : Field), s.stepKind = .read f → s.readField f = none →
    step s = .fault (.hostReadInvalid f) ∧ ∀ n, core.run (n + 1) s = .fault (.hostReadInvalid f)

/-- R32: reads are idempotent: after a READ every field reads as before. -/
def Obligations.ReadsAreIdempotent : Prop :=
  ∀ (s t : State) (f : Field), s.stepKind = .read f → step s = .next t → ∀ g, t.readField g = s.readField g

/-- R118: from ACCEPT until COMPLETE (PHASE = BUSY, in a state of the invariant) a READ of STATUS, R or C faults. -/
def Obligations.ReadsWhileBusyFault : Prop :=
  ∀ (s : State) (f : Field), s.Inv → s.phase = .busy → s.stepKind = .read f → f ≠ .reqReady → f ≠ .rspValid →
    step s = .fault (.hostReadInvalid f)

/-- R96: a step answers a next state, or the fault HOST_READ_INVALID of a READ that R95 forbids, or holds (a next state with
the instance unchanged, log 19); it never refuses. There is no stuck state: in IDLE a presented request is accepted, in
BUSY COMPLETE can always be taken (with no turns left it is what is taken, log 6). -/
def Obligations.StepOutcomes : Prop :=
  (∀ s : State, (∃ t, step s = .next t) ∨
    ∃ f, s.stepKind = .read f ∧ s.readField f = none ∧ step s = .fault (.hostReadInvalid f)) ∧
  (∀ s : State, s.stepKind = .hold → ∃ t, step s = .next t ∧ t.phase = s.phase ∧ t.lcmd = s.lcmd ∧ t.la = s.la ∧
    t.lb = s.lb ∧ t.r = s.r ∧ t.c = s.c ∧ t.status = s.status ∧ t.rspValid = s.rspValid) ∧
  (∀ (s : State) (q : Request) (rest : List Directive), s.phase = .idle → s.script = .request q :: rest →
    s.stepKind = .accept q ∧ ∃ t, step s = .next t ∧ t.phase = .busy) ∧
  ∀ s : State, s.phase = .busy → s.turns = [] →
    s.stepKind = .complete ∧ ∃ t, step s = .next t ∧ t.phase = .idle

/-- R13: only ACCEPT (IDLE to BUSY), COMPLETE (BUSY to IDLE) and RESET (any phase to IDLE) write PHASE. -/
def Obligations.OnlyThreeStepsWritePhase : Prop :=
  ∀ s t : State, step s = .next t →
    (∀ q, s.stepKind = .accept q → s.phase = .idle ∧ t.phase = .busy) ∧
    (s.stepKind = .complete → s.phase = .busy ∧ t.phase = .idle) ∧
    (s.stepKind = .reset → t.phase = .idle) ∧
    ((∀ q, s.stepKind ≠ .accept q) → s.stepKind ≠ .complete → s.stepKind ≠ .reset → t.phase = s.phase)

/-- R12's "written by" column and R27: the latches are written by ACCEPT (and left unspecified by RESET, R24), R, C and STATUS
by COMPLETE and RESET, RSP_VALID by these three, and OOB_RESULT by no
step. Nor does a step write the model's own choice of a stream of free values (log 4). -/
def Obligations.EachRegisterHasItsWriters : Prop :=
  ∀ s t : State, step s = .next t →
    ((∀ q, s.stepKind ≠ .accept q) → s.stepKind ≠ .reset → t.lcmd = s.lcmd ∧ t.la = s.la ∧ t.lb = s.lb) ∧
    (s.stepKind ≠ .complete → s.stepKind ≠ .reset → t.r = s.r ∧ t.c = s.c ∧ t.status = s.status) ∧
    ((∀ q, s.stepKind ≠ .accept q) → s.stepKind ≠ .complete → s.stepKind ≠ .reset → t.rspValid = s.rspValid) ∧
    t.oobResult = s.oobResult ∧ t.stream = s.stream

/-- R15, R16, R17: no step of an IDLE instance reads the latches: two states that differ in them alone take steps to states
that differ in them alone, or end in the same fault. -/
def Obligations.LatchesAreNotReadBeforeAccept : Prop :=
  ∀ (s : State) (x : Byte) (a b : Limbs), s.phase = .idle →
    (∃ t t', step s = .next t ∧ step { s with lcmd := x, la := a, lb := b } = .next t' ∧
      t' = { t with lcmd := t'.lcmd, la := t'.la, lb := t'.lb }) ∨
    ∃ f, step s = .fault f ∧ step { s with lcmd := x, la := a, lb := b } = .fault f

/-- The response registers agree with STATUS and the phase after every step from a state in which they do (R18, R20–R22, R41,
R89, R94, R100, R113). -/
def Obligations.StepKeepsInvariant : Prop :=
  ∀ s t : State, s.Inv → step s = .next t → t.Inv

/-- The invariant holds at reset, and after a RESET step from any state whatever, power-on included (R114). -/
def Obligations.ResetEstablishesInvariant : Prop :=
  State.reset.Inv ∧ ∀ s t : State, s.stepKind = .reset → step s = .next t → t.Inv

/-- Under OOB_RESULT = datapath every step keeps every result limb that holds a value below 2^52 (R18, R63, R93). -/
def Obligations.StepKeepsLimbsCanonical : Prop :=
  State.reset.CanonicalLimbs ∧ ∀ s t : State, s.CanonicalLimbs → step s = .next t → t.CanonicalLimbs

/-- R123, R91: an instance that is BUSY takes its COMPLETE after at most as many host steps as there are turns, unless a
RESET comes first or the host's own READ faults. Until then it stays BUSY with the same latches, and no step before is a
COMPLETE or a RESET. -/
def Obligations.BusyInstanceCompletes : Prop :=
  ∀ s : State, s.phase = .busy →
    ∃ n t, n ≤ s.turns.length ∧ core.run n s = .next t ∧
      t.phase = .busy ∧ t.lcmd = s.lcmd ∧ t.la = s.la ∧ t.lb = s.lb ∧
      (∀ m, m < n → ∃ u, core.run m s = .next u ∧ u.phase = .busy ∧ u.stepKind ≠ .complete ∧ u.stepKind ≠ .reset) ∧
      ((t.stepKind = .complete ∧ ∃ u, core.run (n + 1) s = .next u ∧ u.phase = .idle ∧ u.rspValid = true) ∨
       t.stepKind = .reset ∨
       ∃ f, t.stepKind = .read f ∧ core.run (n + 1) s = .fault (.hostReadInvalid f))

/-- R34 (1, 2), R101: an ACCEPT leaves the instance holding that request; it goes on holding it until a COMPLETE or a RESET,
whatever steps come between; the COMPLETE that then comes gives exactly that request's response, its instruction's effect or
ILLEGAL_CMD; and R, C and STATUS stay as they are until the next COMPLETE or RESET. -/
def Obligations.ResponseBelongsToTheRequest : Prop :=
  (∀ (s : State) (q : Request), s.stepKind = .accept q → ∃ t, step s = .next t ∧ t.Holds q) ∧
  (∀ (s t : State) (q : Request), s.Holds q → step s = .next t → s.stepKind ≠ .complete → s.stepKind ≠ .reset →
    t.Holds q) ∧
  (∀ (s t : State) (q : Request) (n : Nat), s.stepKind = .accept q → core.run (n + 1) s = .next t →
    (∀ m u, 1 ≤ m → m ≤ n → core.run m s = .next u → u.stepKind ≠ .complete ∧ u.stepKind ≠ .reset) →
    t.Holds q ∧
    (t.stepKind = .complete →
      (∀ i, decode q = .ok i → step t = exec i { t with turns := t.turns.tail }) ∧
      ∀ e, decode q = .error e → ∃ u, step t = .next u ∧ u.status = some statusIllegalCmd ∧
        u.r = Five.fill none ∧ u.c = Nine.fill none ∧ u.rspValid = true ∧ u.phase = .idle)) ∧
  ∀ s t : State, step s = .next t → s.stepKind ≠ .complete → s.stepKind ≠ .reset →
    t.status = s.status ∧ t.r = s.r ∧ t.c = s.c

/-- R45, R97: at the host's move a `wait` is done when RSP_VALID = 1 and holds otherwise; an `expect` is a READ whose outcome
the host notes, and affects the instance no more than a READ does. -/
def Obligations.WaitAndExpectDirectives : Prop :=
  (∀ (s : State) (rest : List Directive), s.script = .wait :: rest → s.blockMoves = false →
    ∃ t, step s = .next t ∧ t.script = (if s.rspValid = true then rest else s.script) ∧ t.phase = s.phase ∧
      t.r = s.r ∧ t.c = s.c ∧ t.status = s.status ∧ t.rspValid = s.rspValid ∧ t.observed = s.observed) ∧
  ∀ (s : State) (f : Field) (v w : FieldValue) (rest : List Directive), s.script = .expect f w :: rest →
    s.blockMoves = false → s.readField f = some v →
    ∃ t, step s = .next t ∧ t.script = rest ∧ t.observed = s.observed ++ [v] ∧ t.checks = s.checks ++ [decide (v = w)] ∧
      t.phase = s.phase ∧ t.r = s.r ∧ t.c = s.c ∧ t.status = s.status ∧ t.rspValid = s.rspValid

/-- R28, R110: a step of one instance leaves every other as it is and is the step that instance takes alone; steps of two
instances can be taken in either order with the same end. -/
def Obligations.InstancesAreIndependent : Prop :=
  (∀ (p p' : Platform) (j k : Nat), p.stepAt j = .next p' → j ≠ k →
    p'.insts[k]? = p.insts[k]? ∧ p'.numInstances = p.numInstances) ∧
  (∀ (p : Platform) (j : Nat) (s t : State), p.insts[j]? = some s → step s = .next t →
    ∃ p', p.stepAt j = .next p' ∧ p'.insts[j]? = some t) ∧
  ∀ (p p1 p2 : Platform) (j k : Nat), j ≠ k → p.stepAt j = .next p1 → p.stepAt k = .next p2 →
    ∃ p3, p1.stepAt k = .next p3 ∧ p2.stepAt j = .next p3
end

