-- ==== Sys2Proof/Laws/Datapath.lean ====
section
/-!
SUPPORT. The datapath primitives as operations of `BitVec` and of `Nat`: one lemma each, so that no proof unfolds them.
-/

namespace Sys2Proof.Machine

theorem accAdd_eq_add (x y : Coeff) : accAdd x y = x + y := by
  apply BitVec.eq_of_toNat_eq; simp [accAdd]

theorem accSub_eq_sub (x y : Coeff) : accSub x y = x - y := by
  apply BitVec.eq_of_toNat_eq
  simp only [accSub, BitVec.toNat_ofNat, BitVec.toNat_sub]
  have := y.isLt
  congr 1
  omega

theorem accDbl_eq_add (x : Coeff) : accDbl x = x + x := accAdd_eq_add x x

/-- A product as a product of widened limbs. -/
theorem prod_eq_mul (x y : Limb) : prod x y = x.setWidth 128 * y.setWidth 128 := by
  apply BitVec.eq_of_toNat_eq
  have hx := x.isLt
  have hy := y.isLt
  simp only [prod, BitVec.toNat_ofNat, BitVec.toNat_mul, BitVec.toNat_setWidth]
  rw [Nat.mod_eq_of_lt (show x.toNat < 2 ^ 128 by omega), Nat.mod_eq_of_lt (show y.toNat < 2 ^ 128 by omega)]

theorem low52_toNat (t : Coeff) : (low52 t).toNat = t.toNat % 2 ^ 52 := by
  simp only [low52, BitVec.toNat_setWidth, BitVec.extractLsb'_toNat, Nat.shiftRight_zero]
  omega

theorem shr52_toNat (t : Coeff) : (shr52 t).toNat = t.toNat / 2 ^ 52 := by
  simp [shr52, Nat.shiftRight_eq_div_pow]

/-- The pairs of R55's table. -/
theorem indexPairs_table :
    indexPairs 0 = [(0, 0)] ∧ indexPairs 1 = [(0, 1), (1, 0)] ∧ indexPairs 2 = [(0, 2), (1, 1), (2, 0)] ∧
    indexPairs 3 = [(0, 3), (1, 2), (2, 1), (3, 0)] ∧ indexPairs 4 = [(0, 4), (1, 3), (2, 2), (3, 1), (4, 0)] ∧
    indexPairs 5 = [(1, 4), (2, 3), (3, 2), (4, 1)] ∧ indexPairs 6 = [(2, 4), (3, 3), (4, 2)] ∧
    indexPairs 7 = [(3, 4), (4, 3)] ∧ indexPairs 8 = [(4, 4)] := by decide

end Sys2Proof.Machine
end

