-- ==== Sys2Proof/Laws/PerInstr.lean ====
section
/-!
SUPPORT. Statements about every instruction as syntax, one lemma per constructor.
-/

namespace Sys2Proof

/-- The low byte of an assembled word is its CMD byte (R36, R44). -/
theorem reqCmd_assemble (cmd : Byte) (a b : Limbs) : reqCmd (assemble cmd a b) = cmd := by
  unfold reqCmd assemble
  simp (disch := omega) only [BitVec.extractLsb'_append_eq_of_add_le]
  simp

end Sys2Proof

/-- The request word of an instruction carries a legal command, and the one its mnemonic has (R38). -/
def Sys2Proof.Laws.EncodedCommandIsItsOwn.Statement : Sys2Proof.Instr → Prop
  | .mulSb a b => Sys2Proof.decodeCmd (Sys2Proof.reqCmd (Sys2Proof.encode (.mulSb a b))) = .mulSb
  | .mulKa a b => Sys2Proof.decodeCmd (Sys2Proof.reqCmd (Sys2Proof.encode (.mulKa a b))) = .mulKa

theorem Sys2Proof.Laws.EncodedCommandIsItsOwn.mulSb (a b : Sys2Proof.Limbs) :
    Sys2Proof.Laws.EncodedCommandIsItsOwn.Statement (.mulSb a b) := by
  simp only [EncodedCommandIsItsOwn.Statement, encode, reqCmd_assemble]
  decide

theorem Sys2Proof.Laws.EncodedCommandIsItsOwn.mulKa (a b : Sys2Proof.Limbs) :
    Sys2Proof.Laws.EncodedCommandIsItsOwn.Statement (.mulKa a b) := by
  simp only [EncodedCommandIsItsOwn.Statement, encode, reqCmd_assemble]
  decide
end

