-- ==== Sys2Proof/Laws/State.lean ====
section
/-!
SUPPORT. One lemma per field of State and per named update of it.
-/

namespace Sys2Proof.Machine

/-! ## `State.respond` -/

@[simp] theorem State.respond_phase (st : BitVec 2) (rv : Five (Option Limb)) (cv : Nine (Option Coeff)) (s : State) : (s.respond st rv cv).phase = s.phase := rfl
@[simp] theorem State.respond_lcmd (st : BitVec 2) (rv : Five (Option Limb)) (cv : Nine (Option Coeff)) (s : State) : (s.respond st rv cv).lcmd = s.lcmd := rfl
@[simp] theorem State.respond_la (st : BitVec 2) (rv : Five (Option Limb)) (cv : Nine (Option Coeff)) (s : State) : (s.respond st rv cv).la = s.la := rfl
@[simp] theorem State.respond_lb (st : BitVec 2) (rv : Five (Option Limb)) (cv : Nine (Option Coeff)) (s : State) : (s.respond st rv cv).lb = s.lb := rfl
@[simp] theorem State.respond_r (st : BitVec 2) (rv : Five (Option Limb)) (cv : Nine (Option Coeff)) (s : State) : (s.respond st rv cv).r = rv := rfl
@[simp] theorem State.respond_c (st : BitVec 2) (rv : Five (Option Limb)) (cv : Nine (Option Coeff)) (s : State) : (s.respond st rv cv).c = cv := rfl
@[simp] theorem State.respond_status (st : BitVec 2) (rv : Five (Option Limb)) (cv : Nine (Option Coeff)) (s : State) : (s.respond st rv cv).status = some st := rfl
@[simp] theorem State.respond_rspValid (st : BitVec 2) (rv : Five (Option Limb)) (cv : Nine (Option Coeff)) (s : State) : (s.respond st rv cv).rspValid = true := rfl
@[simp] theorem State.respond_oobResult (st : BitVec 2) (rv : Five (Option Limb)) (cv : Nine (Option Coeff)) (s : State) : (s.respond st rv cv).oobResult = s.oobResult := rfl
@[simp] theorem State.respond_script (st : BitVec 2) (rv : Five (Option Limb)) (cv : Nine (Option Coeff)) (s : State) : (s.respond st rv cv).script = s.script := rfl
@[simp] theorem State.respond_turns (st : BitVec 2) (rv : Five (Option Limb)) (cv : Nine (Option Coeff)) (s : State) : (s.respond st rv cv).turns = s.turns := rfl
@[simp] theorem State.respond_observed (st : BitVec 2) (rv : Five (Option Limb)) (cv : Nine (Option Coeff)) (s : State) : (s.respond st rv cv).observed = s.observed := rfl
@[simp] theorem State.respond_checks (st : BitVec 2) (rv : Five (Option Limb)) (cv : Nine (Option Coeff)) (s : State) : (s.respond st rv cv).checks = s.checks := rfl
@[simp] theorem State.respond_draws (st : BitVec 2) (rv : Five (Option Limb)) (cv : Nine (Option Coeff)) (s : State) : (s.respond st rv cv).draws = s.draws := rfl
@[simp] theorem State.respond_stream (st : BitVec 2) (rv : Five (Option Limb)) (cv : Nine (Option Coeff)) (s : State) : (s.respond st rv cv).stream = s.stream := rfl

/-! ## `State.finish` -/

@[simp] theorem State.finish_phase (st : BitVec 2) (rv : Five (Option Limb)) (cv : Nine (Option Coeff)) (s : State) : (s.finish st rv cv).phase = .idle := rfl
@[simp] theorem State.finish_lcmd (st : BitVec 2) (rv : Five (Option Limb)) (cv : Nine (Option Coeff)) (s : State) : (s.finish st rv cv).lcmd = s.lcmd := rfl
@[simp] theorem State.finish_la (st : BitVec 2) (rv : Five (Option Limb)) (cv : Nine (Option Coeff)) (s : State) : (s.finish st rv cv).la = s.la := rfl
@[simp] theorem State.finish_lb (st : BitVec 2) (rv : Five (Option Limb)) (cv : Nine (Option Coeff)) (s : State) : (s.finish st rv cv).lb = s.lb := rfl
@[simp] theorem State.finish_r (st : BitVec 2) (rv : Five (Option Limb)) (cv : Nine (Option Coeff)) (s : State) : (s.finish st rv cv).r = rv := rfl
@[simp] theorem State.finish_c (st : BitVec 2) (rv : Five (Option Limb)) (cv : Nine (Option Coeff)) (s : State) : (s.finish st rv cv).c = cv := rfl
@[simp] theorem State.finish_status (st : BitVec 2) (rv : Five (Option Limb)) (cv : Nine (Option Coeff)) (s : State) : (s.finish st rv cv).status = some st := rfl
@[simp] theorem State.finish_rspValid (st : BitVec 2) (rv : Five (Option Limb)) (cv : Nine (Option Coeff)) (s : State) : (s.finish st rv cv).rspValid = true := rfl
@[simp] theorem State.finish_oobResult (st : BitVec 2) (rv : Five (Option Limb)) (cv : Nine (Option Coeff)) (s : State) : (s.finish st rv cv).oobResult = s.oobResult := rfl
@[simp] theorem State.finish_script (st : BitVec 2) (rv : Five (Option Limb)) (cv : Nine (Option Coeff)) (s : State) : (s.finish st rv cv).script = s.script := rfl
@[simp] theorem State.finish_turns (st : BitVec 2) (rv : Five (Option Limb)) (cv : Nine (Option Coeff)) (s : State) : (s.finish st rv cv).turns = s.turns := rfl
@[simp] theorem State.finish_observed (st : BitVec 2) (rv : Five (Option Limb)) (cv : Nine (Option Coeff)) (s : State) : (s.finish st rv cv).observed = s.observed := rfl
@[simp] theorem State.finish_checks (st : BitVec 2) (rv : Five (Option Limb)) (cv : Nine (Option Coeff)) (s : State) : (s.finish st rv cv).checks = s.checks := rfl
@[simp] theorem State.finish_draws (st : BitVec 2) (rv : Five (Option Limb)) (cv : Nine (Option Coeff)) (s : State) : (s.finish st rv cv).draws = s.draws := rfl
@[simp] theorem State.finish_stream (st : BitVec 2) (rv : Five (Option Limb)) (cv : Nine (Option Coeff)) (s : State) : (s.finish st rv cv).stream = s.stream := rfl

/-! ## `State.illegalCmd` -/

@[simp] theorem State.illegalCmd_phase (s : State) : s.illegalCmd.phase = .idle := rfl
@[simp] theorem State.illegalCmd_lcmd (s : State) : s.illegalCmd.lcmd = s.lcmd := rfl
@[simp] theorem State.illegalCmd_la (s : State) : s.illegalCmd.la = s.la := rfl
@[simp] theorem State.illegalCmd_lb (s : State) : s.illegalCmd.lb = s.lb := rfl
@[simp] theorem State.illegalCmd_r (s : State) : s.illegalCmd.r = Five.fill none := rfl
@[simp] theorem State.illegalCmd_c (s : State) : s.illegalCmd.c = Nine.fill none := rfl
@[simp] theorem State.illegalCmd_status (s : State) : s.illegalCmd.status = some statusIllegalCmd := rfl
@[simp] theorem State.illegalCmd_rspValid (s : State) : s.illegalCmd.rspValid = true := rfl
@[simp] theorem State.illegalCmd_oobResult (s : State) : s.illegalCmd.oobResult = s.oobResult := rfl
@[simp] theorem State.illegalCmd_script (s : State) : s.illegalCmd.script = s.script := rfl
@[simp] theorem State.illegalCmd_turns (s : State) : s.illegalCmd.turns = s.turns := rfl
@[simp] theorem State.illegalCmd_observed (s : State) : s.illegalCmd.observed = s.observed := rfl
@[simp] theorem State.illegalCmd_checks (s : State) : s.illegalCmd.checks = s.checks := rfl
@[simp] theorem State.illegalCmd_draws (s : State) : s.illegalCmd.draws = s.draws := rfl
@[simp] theorem State.illegalCmd_stream (s : State) : s.illegalCmd.stream = s.stream := rfl

/-! ## `State.resetBlock` -/

@[simp] theorem State.resetBlock_phase (s : State) : s.resetBlock.phase = .idle := rfl
@[simp] theorem State.resetBlock_lcmd (s : State) : s.resetBlock.lcmd = Config.drawByte .reset s.stream s.draws := rfl
@[simp] theorem State.resetBlock_la (s : State) : s.resetBlock.la = Config.drawLimbs .reset s.stream (s.draws + 1) := rfl
@[simp] theorem State.resetBlock_lb (s : State) : s.resetBlock.lb = Config.drawLimbs .reset s.stream (s.draws + 6) := rfl
@[simp] theorem State.resetBlock_r (s : State) : s.resetBlock.r = Five.fill none := rfl
@[simp] theorem State.resetBlock_c (s : State) : s.resetBlock.c = Nine.fill none := rfl
@[simp] theorem State.resetBlock_status (s : State) : s.resetBlock.status = none := rfl
@[simp] theorem State.resetBlock_rspValid (s : State) : s.resetBlock.rspValid = false := rfl
@[simp] theorem State.resetBlock_oobResult (s : State) : s.resetBlock.oobResult = s.oobResult := rfl
@[simp] theorem State.resetBlock_script (s : State) : s.resetBlock.script = s.script := rfl
@[simp] theorem State.resetBlock_turns (s : State) : s.resetBlock.turns = s.turns := rfl
@[simp] theorem State.resetBlock_observed (s : State) : s.resetBlock.observed = s.observed := rfl
@[simp] theorem State.resetBlock_checks (s : State) : s.resetBlock.checks = s.checks := rfl
@[simp] theorem State.resetBlock_draws (s : State) : s.resetBlock.draws = s.draws + resetDraws := rfl
@[simp] theorem State.resetBlock_stream (s : State) : s.resetBlock.stream = s.stream := rfl

/-! ## `State.accept` -/

@[simp] theorem State.accept_phase (q : Request) (s : State) : (s.accept q).phase = .busy := rfl
@[simp] theorem State.accept_lcmd (q : Request) (s : State) : (s.accept q).lcmd = reqCmd q := rfl
@[simp] theorem State.accept_la (q : Request) (s : State) : (s.accept q).la = reqA q := rfl
@[simp] theorem State.accept_lb (q : Request) (s : State) : (s.accept q).lb = reqB q := rfl
@[simp] theorem State.accept_r (q : Request) (s : State) : (s.accept q).r = s.r := rfl
@[simp] theorem State.accept_c (q : Request) (s : State) : (s.accept q).c = s.c := rfl
@[simp] theorem State.accept_status (q : Request) (s : State) : (s.accept q).status = s.status := rfl
@[simp] theorem State.accept_rspValid (q : Request) (s : State) : (s.accept q).rspValid = false := rfl
@[simp] theorem State.accept_oobResult (q : Request) (s : State) : (s.accept q).oobResult = s.oobResult := rfl
@[simp] theorem State.accept_script (q : Request) (s : State) : (s.accept q).script = s.script := rfl
@[simp] theorem State.accept_turns (q : Request) (s : State) : (s.accept q).turns = s.turns := rfl
@[simp] theorem State.accept_observed (q : Request) (s : State) : (s.accept q).observed = s.observed := rfl
@[simp] theorem State.accept_checks (q : Request) (s : State) : (s.accept q).checks = s.checks := rfl
@[simp] theorem State.accept_draws (q : Request) (s : State) : (s.accept q).draws = s.draws := rfl
@[simp] theorem State.accept_stream (q : Request) (s : State) : (s.accept q).stream = s.stream := rfl

/-! ## `State.note` -/

@[simp] theorem State.note_phase (v : FieldValue) (s : State) : (s.note v).phase = s.phase := rfl
@[simp] theorem State.note_lcmd (v : FieldValue) (s : State) : (s.note v).lcmd = s.lcmd := rfl
@[simp] theorem State.note_la (v : FieldValue) (s : State) : (s.note v).la = s.la := rfl
@[simp] theorem State.note_lb (v : FieldValue) (s : State) : (s.note v).lb = s.lb := rfl
@[simp] theorem State.note_r (v : FieldValue) (s : State) : (s.note v).r = s.r := rfl
@[simp] theorem State.note_c (v : FieldValue) (s : State) : (s.note v).c = s.c := rfl
@[simp] theorem State.note_status (v : FieldValue) (s : State) : (s.note v).status = s.status := rfl
@[simp] theorem State.note_rspValid (v : FieldValue) (s : State) : (s.note v).rspValid = s.rspValid := rfl
@[simp] theorem State.note_oobResult (v : FieldValue) (s : State) : (s.note v).oobResult = s.oobResult := rfl
@[simp] theorem State.note_script (v : FieldValue) (s : State) : (s.note v).script = s.script := rfl
@[simp] theorem State.note_turns (v : FieldValue) (s : State) : (s.note v).turns = s.turns := rfl
@[simp] theorem State.note_observed (v : FieldValue) (s : State) : (s.note v).observed = s.observed ++ [v] := rfl
@[simp] theorem State.note_checks (v : FieldValue) (s : State) : (s.note v).checks = s.checks ++ expectOutcome v s.script := rfl
@[simp] theorem State.note_draws (v : FieldValue) (s : State) : (s.note v).draws = s.draws := rfl
@[simp] theorem State.note_stream (v : FieldValue) (s : State) : (s.note v).stream = s.stream := rfl

/-! ## `State.withRequest` -/

@[simp] theorem State.withRequest_phase (q : Request) (s : State) : (s.withRequest q).phase = .busy := rfl
@[simp] theorem State.withRequest_lcmd (q : Request) (s : State) : (s.withRequest q).lcmd = reqCmd q := rfl
@[simp] theorem State.withRequest_la (q : Request) (s : State) : (s.withRequest q).la = reqA q := rfl
@[simp] theorem State.withRequest_lb (q : Request) (s : State) : (s.withRequest q).lb = reqB q := rfl
@[simp] theorem State.withRequest_r (q : Request) (s : State) : (s.withRequest q).r = s.r := rfl
@[simp] theorem State.withRequest_c (q : Request) (s : State) : (s.withRequest q).c = s.c := rfl
@[simp] theorem State.withRequest_status (q : Request) (s : State) : (s.withRequest q).status = s.status := rfl
@[simp] theorem State.withRequest_rspValid (q : Request) (s : State) : (s.withRequest q).rspValid = false := rfl
@[simp] theorem State.withRequest_oobResult (q : Request) (s : State) : (s.withRequest q).oobResult = s.oobResult := rfl
@[simp] theorem State.withRequest_script (q : Request) (s : State) : (s.withRequest q).script = s.script := rfl
@[simp] theorem State.withRequest_turns (q : Request) (s : State) : (s.withRequest q).turns = .block :: s.turns := rfl
@[simp] theorem State.withRequest_observed (q : Request) (s : State) : (s.withRequest q).observed = s.observed := rfl
@[simp] theorem State.withRequest_checks (q : Request) (s : State) : (s.withRequest q).checks = s.checks := rfl
@[simp] theorem State.withRequest_draws (q : Request) (s : State) : (s.withRequest q).draws = s.draws := rfl
@[simp] theorem State.withRequest_stream (q : Request) (s : State) : (s.withRequest q).stream = s.stream := rfl

/-! ## `State.passTurn` -/

@[simp] theorem State.passTurn_phase (s : State) : s.passTurn.phase = s.phase := by unfold State.passTurn; split <;> rfl
@[simp] theorem State.passTurn_lcmd (s : State) : s.passTurn.lcmd = s.lcmd := by unfold State.passTurn; split <;> rfl
@[simp] theorem State.passTurn_la (s : State) : s.passTurn.la = s.la := by unfold State.passTurn; split <;> rfl
@[simp] theorem State.passTurn_lb (s : State) : s.passTurn.lb = s.lb := by unfold State.passTurn; split <;> rfl
@[simp] theorem State.passTurn_r (s : State) : s.passTurn.r = s.r := by unfold State.passTurn; split <;> rfl
@[simp] theorem State.passTurn_c (s : State) : s.passTurn.c = s.c := by unfold State.passTurn; split <;> rfl
@[simp] theorem State.passTurn_status (s : State) : s.passTurn.status = s.status := by unfold State.passTurn; split <;> rfl
@[simp] theorem State.passTurn_rspValid (s : State) : s.passTurn.rspValid = s.rspValid := by unfold State.passTurn; split <;> rfl
@[simp] theorem State.passTurn_oobResult (s : State) : s.passTurn.oobResult = s.oobResult := by unfold State.passTurn; split <;> rfl
@[simp] theorem State.passTurn_script (s : State) : s.passTurn.script = s.script := by unfold State.passTurn; split <;> rfl
@[simp] theorem State.passTurn_observed (s : State) : s.passTurn.observed = s.observed := by unfold State.passTurn; split <;> rfl
@[simp] theorem State.passTurn_checks (s : State) : s.passTurn.checks = s.checks := by unfold State.passTurn; split <;> rfl
@[simp] theorem State.passTurn_draws (s : State) : s.passTurn.draws = s.draws := by unfold State.passTurn; split <;> rfl
@[simp] theorem State.passTurn_stream (s : State) : s.passTurn.stream = s.stream := by unfold State.passTurn; split <;> rfl

/-! ## `State.advanceScript` -/

@[simp] theorem State.advanceScript_phase (s : State) : s.advanceScript.phase = s.phase := by unfold State.advanceScript; split <;> rfl
@[simp] theorem State.advanceScript_lcmd (s : State) : s.advanceScript.lcmd = s.lcmd := by unfold State.advanceScript; split <;> rfl
@[simp] theorem State.advanceScript_la (s : State) : s.advanceScript.la = s.la := by unfold State.advanceScript; split <;> rfl
@[simp] theorem State.advanceScript_lb (s : State) : s.advanceScript.lb = s.lb := by unfold State.advanceScript; split <;> rfl
@[simp] theorem State.advanceScript_r (s : State) : s.advanceScript.r = s.r := by unfold State.advanceScript; split <;> rfl
@[simp] theorem State.advanceScript_c (s : State) : s.advanceScript.c = s.c := by unfold State.advanceScript; split <;> rfl
@[simp] theorem State.advanceScript_status (s : State) : s.advanceScript.status = s.status := by unfold State.advanceScript; split <;> rfl
@[simp] theorem State.advanceScript_rspValid (s : State) : s.advanceScript.rspValid = s.rspValid := by unfold State.advanceScript; split <;> rfl
@[simp] theorem State.advanceScript_oobResult (s : State) : s.advanceScript.oobResult = s.oobResult := by unfold State.advanceScript; split <;> rfl
@[simp] theorem State.advanceScript_turns (s : State) : s.advanceScript.turns = s.turns := by unfold State.advanceScript; split <;> rfl
@[simp] theorem State.advanceScript_observed (s : State) : s.advanceScript.observed = s.observed := by unfold State.advanceScript; split <;> rfl
@[simp] theorem State.advanceScript_checks (s : State) : s.advanceScript.checks = s.checks := by unfold State.advanceScript; split <;> rfl
@[simp] theorem State.advanceScript_draws (s : State) : s.advanceScript.draws = s.draws := by unfold State.advanceScript; split <;> rfl
@[simp] theorem State.advanceScript_stream (s : State) : s.advanceScript.stream = s.stream := by unfold State.advanceScript; split <;> rfl

/-! ## `State.hostStep` -/

@[simp] theorem State.hostStep_phase (s : State) : s.hostStep.phase = s.phase := by simp [State.hostStep]
@[simp] theorem State.hostStep_lcmd (s : State) : s.hostStep.lcmd = s.lcmd := by simp [State.hostStep]
@[simp] theorem State.hostStep_la (s : State) : s.hostStep.la = s.la := by simp [State.hostStep]
@[simp] theorem State.hostStep_lb (s : State) : s.hostStep.lb = s.lb := by simp [State.hostStep]
@[simp] theorem State.hostStep_r (s : State) : s.hostStep.r = s.r := by simp [State.hostStep]
@[simp] theorem State.hostStep_c (s : State) : s.hostStep.c = s.c := by simp [State.hostStep]
@[simp] theorem State.hostStep_status (s : State) : s.hostStep.status = s.status := by simp [State.hostStep]
@[simp] theorem State.hostStep_rspValid (s : State) : s.hostStep.rspValid = s.rspValid := by simp [State.hostStep]
@[simp] theorem State.hostStep_oobResult (s : State) : s.hostStep.oobResult = s.oobResult := by simp [State.hostStep]
@[simp] theorem State.hostStep_script (s : State) : s.hostStep.script = s.advanceScript.script := by simp [State.hostStep]
@[simp] theorem State.hostStep_observed (s : State) : s.hostStep.observed = s.observed := by simp [State.hostStep]
@[simp] theorem State.hostStep_checks (s : State) : s.hostStep.checks = s.checks := by simp [State.hostStep]
@[simp] theorem State.hostStep_draws (s : State) : s.hostStep.draws = s.draws := by simp [State.hostStep]
@[simp] theorem State.hostStep_stream (s : State) : s.hostStep.stream = s.stream := by simp [State.hostStep]

/-! ## The turn that passes, and the script that advances -/

theorem State.passTurn_idle {s : State} (h : s.phase = .idle) : s.passTurn = s := by
  simp [State.passTurn, h]

theorem State.passTurn_busy {s : State} (h : s.phase = .busy) : s.passTurn = { s with turns := s.turns.tail } := by
  simp [State.passTurn, h]

theorem State.advanceScript_nil {s : State} (h : s.script = []) : s.advanceScript = s := by
  simp [State.advanceScript, h]

theorem State.advanceScript_cons {s : State} {d : Directive} {rest : List Directive} (h : s.script = d :: rest) :
    s.advanceScript = { s with script := if directiveDone s d then rest else d :: rest } := by
  simp [State.advanceScript, h]

end Sys2Proof.Machine
end

