-- ==== Sys2Proof/Laws/Step.lean ====
section
/-!
SUPPORT. What the shared operations and the step can do, said once: one inversion lemma each.
-/

namespace Sys2Proof.Machine

@[simp] theorem Instr.opA_mulSb (a b : Limbs) : (Instr.mulSb a b).opA = a := rfl
@[simp] theorem Instr.opB_mulSb (a b : Limbs) : (Instr.mulSb a b).opB = b := rfl
@[simp] theorem Instr.opA_mulKa (a b : Limbs) : (Instr.mulKa a b).opA = a := rfl
@[simp] theorem Instr.opB_mulKa (a b : Limbs) : (Instr.mulKa a b).opB = b := rfl

/-- What both commands end with, in its two cases (R58, R83, R93). -/
theorem State.deliver_cases (i : Instr) (cv : Coeffs) (s : State) :
    ((inBound i.opA i.opB = true ∨ s.oobResult = .datapath) ∧
      s.deliver i cv = s.finish statusOk ((fold cv.low).ro.map some) (cv.map some)) ∨
    (inBound i.opA i.opB = false ∧ s.oobResult = .any ∧
      s.deliver i cv = { s with draws := s.draws + oobDraws }.finish statusOk
        ((s.freeLimbs i).map some) ((s.freeCoeffs i).map some)) := by
  unfold State.deliver
  cases hb : inBound i.opA i.opB <;> cases ho : s.oobResult <;> simp

/-- In bound, or under `datapath`, the datapath's values are delivered. -/
theorem State.deliver_of_computed {i : Instr} {s : State} (cv : Coeffs)
    (h : inBound i.opA i.opB = true ∨ s.oobResult = .datapath) :
    s.deliver i cv = s.finish statusOk ((fold cv.low).ro.map some) (cv.map some) := by
  rcases s.deliver_cases i cv with ⟨-, he⟩ | ⟨hb, ho, -⟩
  · exact he
  · simp [hb, ho] at h

/-- Out of bound under `any`, free values of the command's own are delivered (R93). -/
theorem State.deliver_of_free {i : Instr} {s : State} (cv : Coeffs) (hb : inBound i.opA i.opB = false)
    (ho : s.oobResult = .any) :
    s.deliver i cv = { s with draws := s.draws + oobDraws }.finish statusOk
      ((s.freeLimbs i).map some) ((s.freeCoeffs i).map some) := by
  rcases s.deliver_cases i cv with ⟨h, -⟩ | ⟨-, -, he⟩
  · simp [hb, ho] at h
  · exact he

/-- Every instruction answers a next state: its coefficients delivered. -/
theorem exec_cases (i : Instr) (s : State) :
    ∃ cv, exec i s = .next (s.deliver i cv) ∧
      ((i = .mulSb i.opA i.opB ∧ cv = sbCoeffs i.opA i.opB) ∨ (i = .mulKa i.opA i.opB ∧ cv = kaCoeffs i.opA i.opB)) := by
  cases i with
  | mulSb a b => exact ⟨_, rfl, .inl ⟨rfl, rfl⟩⟩
  | mulKa a b => exact ⟨_, rfl, .inr ⟨rfl, rfl⟩⟩

/-- What the latches decode to, by the CMD byte (R38). -/
theorem State.latched_cases (s : State) :
    (s.lcmd = 0x00 ∧ s.latched = .ok (.mulSb s.la s.lb)) ∨ (s.lcmd = 0x01 ∧ s.latched = .ok (.mulKa s.la s.lb)) ∨
    (s.lcmd ≠ 0x00 ∧ s.lcmd ≠ 0x01 ∧ s.latched = .error (.illegalCmd s.lcmd)) := by
  unfold State.latched decodeParts decodeCmd
  by_cases h0 : s.lcmd = 0x00
  · exact .inl ⟨h0, by simp [h0]⟩
  · by_cases h1 : s.lcmd = 0x01
    · exact .inr (.inl ⟨h1, by simp [h1]⟩)
    · exact .inr (.inr ⟨h0, h1, by simp only [if_neg h0, if_neg h1]⟩)

/-- COMPLETE answers a next state: the command's response, or the ILLEGAL_CMD response (R91). -/
theorem complete_cases (s : State) :
    (∃ i cv, (i = .mulSb s.la s.lb ∧ s.lcmd = 0x00 ∧ cv = sbCoeffs s.la s.lb ∨
        i = .mulKa s.la s.lb ∧ s.lcmd = 0x01 ∧ cv = kaCoeffs s.la s.lb) ∧
      complete s = .next (s.deliver i cv)) ∨
    (s.lcmd ≠ 0x00 ∧ s.lcmd ≠ 0x01 ∧ complete s = .next s.illegalCmd) := by
  rcases s.latched_cases with ⟨h, hl⟩ | ⟨h, hl⟩ | ⟨h0, h1, hl⟩
  · exact .inl ⟨_, _, .inl ⟨rfl, h, rfl⟩, by simp only [complete, hl]; rfl⟩
  · exact .inl ⟨_, _, .inr ⟨rfl, h, rfl⟩, by simp only [complete, hl]; rfl⟩
  · exact .inr ⟨h0, h1, by simp only [complete, hl]⟩

/-! ## `State.deliver`: what it leaves, and STATUS, RSP_VALID and PHASE after it -/

@[simp] theorem State.deliver_lcmd (i : Instr) (cv : Coeffs) (s : State) : (s.deliver i cv).lcmd = s.lcmd := by
  unfold State.deliver; split <;> rfl
@[simp] theorem State.deliver_la (i : Instr) (cv : Coeffs) (s : State) : (s.deliver i cv).la = s.la := by
  unfold State.deliver; split <;> rfl
@[simp] theorem State.deliver_lb (i : Instr) (cv : Coeffs) (s : State) : (s.deliver i cv).lb = s.lb := by
  unfold State.deliver; split <;> rfl
@[simp] theorem State.deliver_phase (i : Instr) (cv : Coeffs) (s : State) : (s.deliver i cv).phase = .idle := by
  unfold State.deliver; split <;> rfl
@[simp] theorem State.deliver_status (i : Instr) (cv : Coeffs) (s : State) : (s.deliver i cv).status = some statusOk := by
  unfold State.deliver; split <;> rfl
@[simp] theorem State.deliver_rspValid (i : Instr) (cv : Coeffs) (s : State) : (s.deliver i cv).rspValid = true := by
  unfold State.deliver; split <;> rfl
@[simp] theorem State.deliver_script (i : Instr) (cv : Coeffs) (s : State) : (s.deliver i cv).script = s.script := by
  unfold State.deliver; split <;> rfl
@[simp] theorem State.deliver_turns (i : Instr) (cv : Coeffs) (s : State) : (s.deliver i cv).turns = s.turns := by
  unfold State.deliver; split <;> rfl
@[simp] theorem State.deliver_oobResult (i : Instr) (cv : Coeffs) (s : State) :
    (s.deliver i cv).oobResult = s.oobResult := by unfold State.deliver; split <;> rfl
@[simp] theorem State.deliver_observed (i : Instr) (cv : Coeffs) (s : State) :
    (s.deliver i cv).observed = s.observed := by unfold State.deliver; split <;> rfl
@[simp] theorem State.deliver_checks (i : Instr) (cv : Coeffs) (s : State) : (s.deliver i cv).checks = s.checks := by
  unfold State.deliver; split <;> rfl
@[simp] theorem State.deliver_stream (i : Instr) (cv : Coeffs) (s : State) : (s.deliver i cv).stream = s.stream := by
  unfold State.deliver; split <;> rfl

/-! ## Which step is due, and what it can do -/

/-- COMPLETE runs what the latches decode to. -/
theorem complete_of_ok {s : State} {i : Instr} (h : s.latched = .ok i) : complete s = exec i s := by
  simp only [complete, h]

/-- The instance moves only while BUSY (R91). -/
theorem State.busy_of_blockMoves {s : State} (h : s.blockMoves = true) : s.phase = .busy := by
  unfold State.blockMoves at h
  cases hp : s.phase with
  | busy => rfl
  | idle => simp [hp] at h

/-- Everything a step can be, with what each kind needs. -/
theorem State.stepKind_cases (s : State) :
    (s.stepKind = .complete ∧ s.blockMoves = true) ∨
    (s.blockMoves = false ∧ s.stepKind = .quiet ∧ s.script = []) ∨
    (∃ d rest, s.blockMoves = false ∧ s.script = d :: rest ∧ s.stepKind = directiveKind s d) := by
  unfold State.stepKind
  cases hb : s.blockMoves with
  | true => exact .inl ⟨rfl, rfl⟩
  | false =>
    cases hs : s.script with
    | nil => exact .inr (.inl ⟨rfl, rfl, rfl⟩)
    | cons d rest => exact .inr (.inr ⟨d, rest, rfl, rfl, rfl⟩)

/-- Everything a step that answers a next state can do (R88, R96). -/
theorem step_next_cases {s t : State} (h : step s = .next t) :
    (s.stepKind = .reset ∧ t = s.hostStep.resetBlock) ∨
    (∃ q, s.stepKind = .accept q ∧ t = s.hostStep.accept q) ∨
    (s.stepKind = .complete ∧ complete s.passTurn = .next t) ∨
    (∃ f v, s.stepKind = .read f ∧ s.readField f = some v ∧ t = (s.note v).hostStep) ∨
    (s.stepKind = .hold ∧ t = s.hostStep) ∨
    (s.stepKind = .quiet ∧ t = s) := by
  unfold step stepAs at h
  cases hk : s.stepKind with
  | reset => simp only [hk, Host.Outcome.next.injEq] at h; exact .inl ⟨rfl, h.symm⟩
  | accept q => simp only [hk, Host.Outcome.next.injEq] at h; exact .inr (.inl ⟨q, rfl, h.symm⟩)
  | complete => simp only [hk] at h; exact .inr (.inr (.inl ⟨rfl, h⟩))
  | read f =>
    simp only [hk, readStep] at h
    split at h
    · next v hv => simp only [Host.Outcome.next.injEq] at h; exact .inr (.inr (.inr (.inl ⟨f, v, rfl, hv, h.symm⟩)))
    · simp at h
  | hold => simp only [hk, Host.Outcome.next.injEq] at h; exact .inr (.inr (.inr (.inr (.inl ⟨rfl, h.symm⟩))))
  | quiet => simp only [hk, Host.Outcome.next.injEq] at h; exact .inr (.inr (.inr (.inr (.inr ⟨rfl, h.symm⟩))))

/-- A request is accepted only while IDLE (R89). -/
theorem State.idle_of_accept {s : State} {q : Request} (h : s.stepKind = .accept q) : s.phase = .idle := by
  rcases s.stepKind_cases with ⟨hk, -⟩ | ⟨-, hk, -⟩ | ⟨d, rest, -, -, hk⟩
  · simp [hk] at h
  · simp [hk] at h
  · rw [hk] at h
    cases d <;> simp only [directiveKind] at h <;>
      first
      | (split at h
         · next hr => simpa [State.reqReady] using hr
         · simp at h)
      | simp at h

/-- COMPLETE is taken only while BUSY (R91). -/
theorem State.busy_of_complete {s : State} (h : s.stepKind = .complete) : s.phase = .busy := by
  rcases s.stepKind_cases with ⟨-, hb⟩ | ⟨-, hk, -⟩ | ⟨d, rest, -, -, hk⟩
  · exact State.busy_of_blockMoves hb
  · simp [hk] at h
  · rw [hk] at h
    cases d <;> simp only [directiveKind] at h <;> first | (split at h <;> simp at h) | simp at h

end Sys2Proof.Machine
end

