-- ==== Sys2Proof/Laws/Run.lean ====
section
/-!
SUPPORT. What a run of the machine does at each step.
-/

namespace Sys2Proof.Machine

theorem run_zero (s : State) : core.run 0 s = .next s := rfl

theorem run_succ_of_next {s t : State} (h : step s = .next t) (n : Nat) : core.run (n + 1) s = core.run n t := by
  have h' : core.step s = .next t := h
  simp only [Host.Core.run, h']

theorem run_succ_of_fault {s : State} {f : Fault} (h : step s = .fault f) (n : Nat) : core.run (n + 1) s = .fault f := by
  have h' : core.step s = .fault f := h
  simp only [Host.Core.run, h']

theorem run_succ_of_refused {s : State} {r : Refusal} (h : step s = .refused r) (n : Nat) :
    core.run (n + 1) s = .refused r := by
  have h' : core.step s = .refused r := h
  simp only [Host.Core.run, h']

/-- A run of one step more takes its last step where the shorter one ends. -/
theorem run_succ_next_iff (n : Nat) (s t : State) :
    core.run (n + 1) s = .next t ↔ ∃ u : State, core.run n s = .next u ∧ step u = .next t := by
  induction n generalizing s with
  | zero =>
    have hz : core.run 1 s = .next t ↔ step s = .next t := by
      cases h : step s with
      | next u => rw [run_succ_of_next h]; rfl
      | fault f => rw [run_succ_of_fault h]; exact ⟨nofun, nofun⟩
      | refused r => rw [run_succ_of_refused h]; exact ⟨nofun, nofun⟩
    exact hz.trans ⟨fun h => ⟨s, rfl, h⟩, fun ⟨u, hu, h⟩ => by cases hu; exact h⟩
  | succ n ih =>
    cases h : step s with
    | next u => simp only [run_succ_of_next h]; exact ih u
    | fault f => simp [run_succ_of_fault h]
    | refused r => simp [run_succ_of_refused h]

end Sys2Proof.Machine
end

