-- ==== Sys2Proof/Laws/Vectors.lean ====
section
/-!
SUPPORT. The elements of the two fixed-length vectors.
-/

namespace Sys2Proof

theorem Five.forall_iff {p : Fin 5 → Prop} : (∀ i, p i) ↔ p 0 ∧ p 1 ∧ p 2 ∧ p 3 ∧ p 4 :=
  ⟨fun h => ⟨h 0, h 1, h 2, h 3, h 4⟩, fun ⟨h0, h1, h2, h3, h4⟩ i =>
    match i with
    | 0 => h0 | 1 => h1 | 2 => h2 | 3 => h3 | 4 => h4⟩

theorem Nine.forall_iff {p : Fin 9 → Prop} :
    (∀ k, p k) ↔ p 0 ∧ p 1 ∧ p 2 ∧ p 3 ∧ p 4 ∧ p 5 ∧ p 6 ∧ p 7 ∧ p 8 :=
  ⟨fun h => ⟨h 0, h 1, h 2, h 3, h 4, h 5, h 6, h 7, h 8⟩, fun ⟨h0, h1, h2, h3, h4, h5, h6, h7, h8⟩ k =>
    match k with
    | 0 => h0 | 1 => h1 | 2 => h2 | 3 => h3 | 4 => h4 | 5 => h5 | 6 => h6 | 7 => h7 | 8 => h8⟩

theorem Five.get_tabulate {α : Type} (f : Fin 5 → α) (i : Fin 5) : (Five.tabulate f).get i = f i := by
  revert i; exact Five.forall_iff.mpr ⟨rfl, rfl, rfl, rfl, rfl⟩

theorem Nine.get_tabulate {α : Type} (f : Fin 9 → α) (k : Fin 9) : (Nine.tabulate f).get k = f k := by
  revert k; exact Nine.forall_iff.mpr ⟨rfl, rfl, rfl, rfl, rfl, rfl, rfl, rfl, rfl⟩

theorem Five.get_map {α β : Type} (f : α → β) (x : Five α) (i : Fin 5) : (x.map f).get i = f (x.get i) :=
  Five.get_tabulate _ i

theorem Nine.get_map {α β : Type} (f : α → β) (x : Nine α) (k : Fin 9) : (x.map f).get k = f (x.get k) :=
  Nine.get_tabulate _ k

theorem Five.get_fill {α : Type} (v : α) (i : Fin 5) : (Five.fill v).get i = v := Five.get_tabulate _ i

theorem Nine.get_fill {α : Type} (v : α) (k : Fin 9) : (Nine.fill v).get k = v := Nine.get_tabulate _ k

/-- Two vectors of five with equal elements are equal. -/
theorem Five.ext_get {α : Type} {x y : Five α} (h : ∀ i, x.get i = y.get i) : x = y := by
  obtain ⟨h0, h1, h2, h3, h4⟩ := Five.forall_iff.mp h
  cases x; cases y
  simp only [Five.get] at h0 h1 h2 h3 h4
  subst h0 h1 h2 h3 h4
  rfl

/-- Two vectors of nine with equal elements are equal. -/
theorem Nine.ext_get {α : Type} {x y : Nine α} (h : ∀ k, x.get k = y.get k) : x = y := by
  obtain ⟨h0, h1, h2, h3, h4, h5, h6, h7, h8⟩ := Nine.forall_iff.mp h
  cases x; cases y
  simp only [Nine.get] at h0 h1 h2 h3 h4 h5 h6 h7 h8
  subst h0 h1 h2 h3 h4 h5 h6 h7 h8
  rfl

end Sys2Proof
end

