-- ==== Sys2Proof/Tests/Slice0.lean ====
section
/-!
SUPPORT. Small tests, each expected value from the spec (95_test_vectors.md unless the comment says otherwise), the
well-formedness smoke tests, and for every statement with hypotheses a witness that meets them.
-/

namespace Sys2Proof.Tests

open Sys2Proof.Machine

set_option exponentiation.threshold 2000
set_option maxRecDepth 20000

/-! ## Helpers -/

/-- The next state an outcome answers, if it does. -/
def answer (o : Host.Outcome State Fault Refusal) : Option State :=
  match o with
  | .next s => some s
  | .fault _ => none
  | .refused _ => none

/-- The fault an outcome ends in, if it does. -/
def faultOf (o : Host.Outcome State Fault Refusal) : Option Fault :=
  match o with
  | .next _ => none
  | .fault f => some f
  | .refused _ => none

/-- Section 1's operand A. -/
def opA : Limbs :=
  ⟨0x123456789ABCDEF0, 0x0FEDCBA987654321, 0x1111111111111111, 0x2222222222222222, 0x3333333333333333⟩

/-- Section 1's operand B. -/
def opB : Limbs :=
  ⟨0x1111111111111111, 0x2222222222222222, 0x3333333333333333, 0x4444444444444444, 0x5555555555555555⟩

/-- Row 6.1's operand A: GA2 wraps to 0. -/
def oobA : Limbs := ⟨0x8000000000000000, 0x8000000000000000, 0, 0, 0⟩

/-- Row 6.1's operand B. -/
def oobB : Limbs := ⟨1, 1, 0, 0, 0⟩

/-- Five equal limbs. -/
def same (x : Limb) : Limbs := Five.fill x

/-- Section 7's request word of `mul.sb` on section 1's operands, written out (R36). -/
def wordSb : Request := 0x555555555555555544444444444444443333333333333333222222222222222211111111111111113333333333333333222222222222222211111111111111110fedcba987654321123456789abcdef000

/-- Program 5's request word of `mul.ka [1, 0, 0, 0, 0], [5, 4, 3, 2, 1]`, written out (R36). -/
def wordKa : Request := 0x000000000000000100000000000000020000000000000003000000000000000400000000000000050000000000000000000000000000000000000000000000000000000000000000000000000000000101

/-- An idle instance whose host has these directives. -/
def idleWith (ds : List Directive) : State := State.reset.withScript ds []

/-- An instance that has accepted `mul.sb` on section 1's operands, with a host and turns. -/
def busyWith (ds : List Directive) (ts : List Turn) : State := (State.reset.accept wordSb).withScript ds ts

/-- An instance that shows section 1's response. -/
def shown (ds : List Directive) : State :=
  (State.reset.deliver (.mulSb opA opB) (sbCoeffs opA opB)).withScript ds []

/-- An out-of-bound command under `datapath`. -/
def datapathState : State := { State.reset with oobResult := .datapath }

/-! ## Well-formedness: an ill-formed term for each check (R44; the last is log 24's) -/

theorem test_wf_four_limbs_refused : (SourceLine.mulSb [1, 2, 3, 4] [1, 2, 3, 4, 5]).wellFormed = false := by decide
theorem test_wf_six_limbs_refused : (SourceLine.mulKa [1, 2, 3, 4, 5] [1, 2, 3, 4, 5, 6]).wellFormed = false := by decide
theorem test_wf_wide_limb_refused :
    (SourceLine.mulSb [1, 2, 3, 4, 0x10000000000000000] [1, 2, 3, 4, 5]).wellFormed = false := by decide
theorem test_wf_wide_byte_refused : (SourceLine.cmd 0x100 [1, 2, 3, 4, 5] [1, 2, 3, 4, 5]).wellFormed = false := by decide
theorem test_wf_wide_expected_value_refused : (SourceLine.expect .status 4).wellFormed = false := by decide
theorem test_wf_good_line : (SourceLine.cmd 0xFF [1, 2, 3, 4, 0xFFFFFFFFFFFFFFFF] [1, 2, 3, 4, 5]).wellFormed = true := by
  decide

/-! ## Decoding and encoding -/

theorem test_decode_mulSb : decode wordSb = .ok (.mulSb opA opB) := rfl
theorem test_decode_mulKa : decode wordKa = .ok (.mulKa ⟨1, 0, 0, 0, 0⟩ ⟨5, 4, 3, 2, 1⟩) := rfl
theorem test_encode_mulSb : encode (.mulSb opA opB) = wordSb := by decide
theorem test_encode_mulKa : encode (.mulKa ⟨1, 0, 0, 0, 0⟩ ⟨5, 4, 3, 2, 1⟩) = wordKa := by decide
/-- Section 7's decode table. -/
theorem test_decodeCmd_table :
    [0x00, 0x01, 0x02, 0x03, 0x04, 0x05, 0x80, 0xFF].map decodeCmd =
      [.mulSb, .mulKa, .illegal, .illegal, .illegal, .illegal, .illegal, .illegal] := by decide
theorem test_decodeBytes_little : decodeBytes .little (requestBytes .little wordSb) = .ok (.mulSb opA opB) := by rfl
theorem test_decodeBytes_short : decodeBytes .big [0x00] = .error (.wrongLength 1) := rfl
theorem test_table_mulSb : decodeTableWord 8 0 = some (.mulSb (same 0) (same 0)) := by decide
theorem test_table_mulKa : decodeTableWord 8 1 = some (.mulKa (same 0) (same 0)) := by decide
theorem test_table_illegal : decodeTableWord 8 0x80 = none := by decide

/-! ## Datapath -/

/-- R47's corner case and section 3: four limbs of 2^62 wrap. -/
theorem test_lsum_wraps : lsum [0x4000000000000000, 0x4000000000000000, 0x4000000000000000, 0x4000000000000000] = 0 := by
  decide
/-- R55's table. -/
theorem test_indexPairs_4 : indexPairs 4 = [(0, 4), (1, 3), (2, 2), (3, 1), (4, 0)] := by decide
theorem test_indexPairs_6 : indexPairs 6 = [(2, 4), (3, 3), (4, 2)] := by decide
/-- Section 1: InBound holds although B4 is above 2^62. -/
theorem test_scenario_in_bound : inBound opA opB = true := by decide
/-- Section 6, row 6.4: InBound fails because of one operand alone. -/
theorem test_one_operand_out_of_bound : inBound ⟨1, 0, 0, 0, 0⟩ (same 0xFFFFFFFFFFFFFFFF) = false := by decide
/-- Section 1: P5 and S3. -/
theorem test_products : (kaProducts opA opB).p5 = 0x38e38e38e38e38d7c71c71c71c71c728 ∧
    (kaProducts opA opB).s3 = 0x147ae147ae147ae11eb851eb851eb852 := by decide

/-! ## The two commands -/

/-- Section 1. -/
theorem test_mulSb_scenario : ((answer (exec (.mulSb opA opB) State.reset)).map fun t => t.r) =
    some ⟨some 0x094f918f48bdf0, some 0x09abcdf01221fd, some 0x0ddddddddeefcb, some 0x041fdb975654b4,
      some 0x00b60b60bca844⟩ := by decide
/-- Section 6, row 6.2 under `datapath`. -/
theorem test_mulSb_out_of_bound :
    ((answer (exec (.mulSb (same 0xFFFFFFFFFFFFFFFF) (same 0xFFFFFFFFFFFFFFFF)) datapathState)).map fun t => t.r) =
    some ⟨some 0x1, some 0xfffffffffe002, some 0xffc002, some 0xfffffffffa004, some 0xff8004⟩ := by decide
/-- Section 1: C6 with the corrected sign of S3. -/
theorem test_mulKa_scenario_c6 : ((answer (exec (.mulKa opA opB) State.reset)).map fun t => t.c.c6) =
    some (some 0x1907f6e5d4c3b2a15e6f8091a2b3c4d6) := by decide
/-- Section 6, row 6.2 under `datapath`. -/
theorem test_mulKa_out_of_bound :
    ((answer (exec (.mulKa (same 0xFFFFFFFFFFFFFFFF) (same 0xFFFFFFFFFFFFFFFF)) datapathState)).map fun t => t.r) =
    some ⟨some 0x1, some 0xfffffffffe002, some 0x1000002, some 0xfffffffffe004, some 0x1000004⟩ := by decide
/-- Row 6.1 under `any`: no flag shows the violation (R103), and each register is a free value (R93). -/
theorem test_mulKa_free_values : ((answer (exec (.mulKa oobA oobB) State.reset)).map fun t => (t.status, t.r.l4, t.draws)) =
    some (some 0b00, some (Config.drawLimb (.command (.mulKa oobA oobB)) 0 4), 14) := rfl

/-! ## Steps -/

/-- The placed instruction is what the first step after reset runs. -/
theorem test_first_step_mulSb : ((answer (step (State.reset.withFetchWord 8 0))).map fun t => (t.status, t.r)) =
    some (some 0b00, Five.fill (some 0)) := by decide
theorem test_first_step_mulKa : ((answer (step (State.reset.withFetchWord 8 1))).map fun t => (t.lcmd, t.status, t.r)) =
    some (0x01, some 0b00, Five.fill (some 0)) := by decide
/-- Section 7, third trace: ILLEGAL_CMD. -/
theorem test_illegal_command : ((answer (step (State.reset.withFetchWord 8 2))).map fun t => (t.status, t.r, t.rspValid)) =
    some (some 0b01, Five.fill none, true) := by decide
/-- Section 7, first trace. -/
theorem test_read_after_reset_faults : faultOf (step (idleWith [.read (.r 0)])) = some (.hostReadInvalid (.r 0)) := by decide
theorem test_read_reqReady : ((answer (step (idleWith [.read .reqReady]))).map fun t => t.observed) = some [.flag true] := by
  decide
/-- Section 7, second trace: held, not accepted. -/
theorem test_request_held : ((answer (step (busyWith [.request wordKa] [.host]))).map fun t => (t.lcmd, t.script)) =
    some (0x00, [.request wordKa]) := by decide
theorem test_accept : ((answer (step (idleWith [.request wordKa]))).map fun t => (t.phase, t.lcmd, t.lb, t.script)) =
    some (.busy, 0x01, ⟨5, 4, 3, 2, 1⟩, []) := by decide
/-- Section 7, second trace, last row: RESET abandons the command. -/
theorem test_reset_abandons : ((answer (step (busyWith [.reset none] [.host]))).map fun t => (t.phase, t.rspValid, t.r)) =
    some (.idle, false, Five.fill none) := by decide
/-- Section 7: the response word's STATUS byte and R0. -/
theorem test_response_word : (responseWord 0b00 (fold (sbCoeffs opA opB).low).ro (sbCoeffs opA opB)).extractLsb' 0 72 =
    0x00094f918f48bdf000 := by decide

/-! ## The assembler -/

theorem test_assemble_text :
    assembleText "reset ; boot\nmul.ka [1, 0, 0, 0, 0], [5, 4, 0x3, 2, 1]\nwait\nexpect status = 0b00\nread c8" =
      some [.reset none, .request wordKa, .wait, .expect .status (.code 0b00), .read (.c 8)] := by decide
theorem test_assemble_rejects : assembleText "mul.sb [1, 2, 3, 4], [1, 2, 3, 4, 5]" = none := by decide

/-! ## Witnesses: concrete values that meet the hypotheses of the statements -/

theorem witness_LimbPreAdderAddsModulo2Pow64 :
    (2 ≤ ([1, 2] : List Limb).length ∧ ([1, 2] : List Limb).length ≤ 4 ∧ ([1, 2] : List Limb).Perm [2, 1]) ∧
    (2 ≤ ([0, 0, 0, 0] : List Limb).length ∧ ([0, 0, 0, 0] : List Limb).length ≤ 4 ∧ ∀ x ∈ ([0, 0, 0, 0] : List Limb), x = 0) :=
  ⟨⟨by decide, by decide, .swap _ _ _⟩, by decide, by decide, by simp⟩
/-- (0 - 1) + 3: the partial result is negative, the exact value is 2 (section 3). -/
theorem witness_AccumulatorExpressionIsExactModulo2Pow128 :
    0 ≤ (AccExpr.add (.sub (.leaf 0) (.leaf 1)) (.leaf 3)).exact ∧
    (AccExpr.add (.sub (.leaf 0) (.leaf 1)) (.leaf 3)).exact < 2 ^ 128 ∧
    (AccExpr.add (.sub (.leaf 0) (.leaf 1)) (.leaf 3)).exact = (AccExpr.dbl (.leaf 1)).exact := by decide
theorem witness_SchoolbookCoefficientsAreConvolution : conv opA opB 8 < 2 ^ 128 ∧ inBound opA opB = true := by decide
theorem witness_SchoolbookAdditionOrderIsFree :
    ([(2, 0), (0, 2), (1, 1)] : List (Fin 5 × Fin 5)).Perm (indexPairs 2) := by decide
theorem witness_FoldKeepsTheValueModulo2Pow260 :
    let ci := (sbCoeffs opA opB).low
    ci.l1.toNat + (fold ci).k.l0.toNat < 2 ^ 128 ∧ ci.l2.toNat + (fold ci).k.l1.toNat < 2 ^ 128 ∧
    ci.l3.toNat + (fold ci).k.l2.toNat < 2 ^ 128 ∧ ci.l4.toNat + (fold ci).k.l3.toNat < 2 ^ 128 := by decide
theorem witness_FoldDoesNotWrapInBound : inBound opA opB = true ∧ kaCoeffs opA opB = kaCoeffs opA opB := by decide
theorem witness_KaratsubaProductsOfGroupSums : boundA opA opB = true ∧ opB = opB := by decide
theorem witness_KaratsubaCoefficientIdentity : inBound opA opB = true := by decide
theorem witness_InBoundIsItsConditions : boundA opA opB = true := by decide
/-- Row 5.10: the edge of the sufficient bound. -/
theorem witness_SixtyTwoBitLimbsAreInBound :
    ∀ i, ((same 0x3fffffffffffffff).get i).toNat < 2 ^ 62 ∧ ((same 0x3fffffffffffffff).get i).toNat < 2 ^ 62 := by decide
theorem witness_MulSbCompletes :
    inBound opA opB = true ∧ datapathState.oobResult = .datapath ∧ inBound oobA oobB = false ∧
    State.reset.oobResult = .any := by decide
theorem witness_MulKaCompletes :
    inBound opA opB = true ∧ datapathState.oobResult = .datapath ∧ inBound oobA oobB = false ∧
    State.reset.oobResult = .any := by decide
theorem witness_ProductModulo2Pow260 :
    (Instr.mulSb opA opB = .mulSb opA opB ∨ Instr.mulSb opA opB = .mulKa opA opB) ∧
    (Instr.mulKa opA opB = .mulSb opA opB ∨ Instr.mulKa opA opB = .mulKa opA opB) ∧ inBound opA opB = true := by decide
theorem witness_CoefficientRegistersHoldConvolution :
    (Instr.mulKa opA opB = .mulSb opA opB ∨ Instr.mulKa opA opB = .mulKa opA opB) ∧ inBound opA opB = true := by decide
theorem witness_CommandsAreEquivalentInBound : inBound opA opB = true ∧ boundA opA opB = true := by decide
/-- In bound, and row 6.5's out-of-bound zero. -/
theorem witness_CommandsCommuteAndAbsorbZero :
    inBound (same 0) opB = true ∧
    (same 0 = Five.fill 0 ∧ inBound (same 0) ⟨0x4000000000000000, 0x4000000000000000, 0x4000000000000000, 0x4000000000000000, 0⟩ = false ∧
      State.reset.oobResult = .any) := by decide
theorem witness_CommandDecodeIsTotal :
    decodeCmd (reqCmd wordSb) = .mulSb ∧ decodeCmd (reqCmd wordKa) = .mulKa ∧ decodeCmd (reqCmd 0xFF) = .illegal := by decide
theorem witness_DecodeOfEncode : (Instr.mulKa opA opB).wellFormed = true := by decide
theorem witness_EncodeOfDecode : decode wordSb = .ok (.mulSb opA opB) ∧ decode 0x02 = .error (.illegalCmd 0x02) := ⟨rfl, rfl⟩
theorem witness_SerialisedRequestDecodes : 0 < 81 ∧ 80 < 81 ∧ 184 < 185 ∧ ([0x00] : List Byte).length ≠ 81 := by decide
theorem witness_ResponseFieldsAtTheirBits :
    (shown []).response.isSome = true ∧ (shown []).status = some 0b00 ∧
    (shown []).r = (fold (sbCoeffs opA opB).low).ro.map some ∧ (shown []).c = (sbCoeffs opA opB).map some ∧ 1479 < 1480 := by
  decide
theorem witness_ResetStepGivesResetValues :
    (busyWith [.reset none, .wait] [.host]).script = .reset none :: [.wait] ∧
    (busyWith [.reset none, .wait] [.host]).blockMoves = false := by decide
theorem witness_ResetAbandonsTheCommand :
    (busyWith [.reset none] [.host]).phase = .busy ∧ (busyWith [.reset none] [.host]).script = [.reset none] ∧
    (busyWith [.reset none] [.host]).blockMoves = false ∧
    ((answer (step (busyWith [] []))).map fun t => ((busyWith [] []).rspValid, t.rspValid)) = some (false, true) := by decide
theorem witness_ResetWinsOverSimultaneousSteps :
    ((busyWith [.reset none] [.both]).phase = .busy ∧ (busyWith [.reset none] [.both]).script = .reset none :: [] ∧
      (busyWith [.reset none] [.both]).turns = .both :: []) ∧
    ((idleWith [.reset (some wordSb)]).phase = .idle ∧ (idleWith [.reset (some wordSb)]).script = .reset (some wordSb) :: []) ∧
    ((busyWith [.wait] [.both]).phase = .busy ∧ (busyWith [.wait] [.both]).script = .wait :: [] ∧
      (busyWith [.wait] [.both]).turns = .both :: []) := by decide
/-- The last clause's last hypothesis: a `wait` asserts no RESET. -/
theorem witness_ResetWinsOverSimultaneousSteps_other : ∀ p, Directive.wait ≠ .reset p := by intro p h; cases h
theorem witness_AcceptLatchesTheRequest :
    (idleWith [.request wordKa]).script = .request wordKa :: [] ∧ (idleWith [.request wordKa]).phase = .idle ∧
    (idleWith [.offer wordKa]).script = .offer wordKa :: [] ∧ (idleWith [.offer wordKa]).phase = .idle := by decide
theorem witness_BusyInstanceHoldsRequests :
    (busyWith [.request wordKa] [.host]).phase = .busy ∧ (busyWith [.request wordKa] [.host]).blockMoves = false ∧
    (busyWith [.request wordKa] [.host]).script = .request wordKa :: [] ∧
    (busyWith [.offer wordKa] [.host]).blockMoves = false ∧ (busyWith [.offer wordKa] [.host]).script = .offer wordKa :: [] ∧
    (busyWith [.request wordKa] [.block]).blockMoves = true ∧
    (busyWith [.request wordKa] [.block]).script = .request wordKa :: [] ∧
    (busyWith [.reset (some wordKa), .request wordKa] [.host]).blockMoves = false ∧
    (busyWith [.reset (some wordKa), .request wordKa] [.host]).script = .reset (some wordKa) :: .request wordKa :: [] := by
  decide
theorem witness_IdleInstanceHoldsItsState :
    (idleWith [.wait]).phase = .idle ∧ (idleWith [.wait]).stepKind = .hold ∧
    (answer (step (idleWith [.wait]))).isSome = true ∧ State.reset.phase = .idle ∧ State.reset.script = [] := by decide
theorem witness_StepRunsTheDecodedInstruction :
    ((busyWith [] []).blockMoves = true ∧ (busyWith [] []).lcmd = reqCmd wordSb ∧ (busyWith [] []).la = reqA wordSb ∧
      (busyWith [] []).lb = reqB wordSb) ∧
    decodeTableWord 8 1 = some (.mulKa (same 0) (same 0)) := by decide
theorem witness_StepRunsTheDecodedInstruction_word : decode wordSb = .ok (.mulSb opA opB) := rfl
theorem witness_IllegalCommandResponse :
    let s := (State.reset.accept 0x80).withScript [.request wordKa] []
    s.blockMoves = true ∧ s.lcmd ≠ 0x00 ∧ s.lcmd ≠ 0x01 ∧
    ((answer (step s)).map fun t => t.script) = some (.request wordKa :: []) := by decide
theorem witness_OutOfBoundIsNotSignalled :
    inBound oobA oobB = false ∧ State.reset.oobResult = .any ∧ datapathState.oobResult = .datapath ∧
    (Instr.mulSb oobA oobB = .mulSb oobA oobB ∧ sbCoeffs oobA oobB = sbCoeffs oobA oobB) := by decide
/-- Two instances with different histories that have accepted the same request; the same stream and number give the same
draw. -/
theorem witness_ResponseDependsOnTheRequestAlone :
    let s1 := (shown []).accept wordKa
    let s2 := State.reset.accept wordKa
    (s1.lcmd = s2.lcmd ∧ s1.la = s2.la ∧ s1.lb = s2.lb ∧ s1.oobResult = s2.oobResult ∧ s1.r ≠ s2.r) ∧
    ∀ i : Instr, s1.latched = .ok i → s1.freeLimbs i = s2.freeLimbs i ∧ s1.freeCoeffs i = s2.freeCoeffs i :=
  ⟨by decide, fun _ _ => ⟨rfl, rfl⟩⟩
theorem witness_ReadReturnsOrFaults :
    (shown [.read (.c 8)]).stepKind = .read (.c 8) ∧
    (shown [.read (.c 8)]).readField (.c 8) = some (.coeff 0x1111111111111110eeeeeeeeeeeeeeef) ∧
    (idleWith [.read .status]).stepKind = .read .status ∧ (idleWith [.read .status]).readField .status = none := by decide
theorem witness_ReadsAreIdempotent :
    (shown [.read (.r 4)]).stepKind = .read (.r 4) ∧ (answer (step (shown [.read (.r 4)]))).isSome = true := by decide
/-- The reset state meets the invariant, and so does an instance that has accepted a request. -/
theorem witness_invariant_busy : (busyWith [.read .status] [.host]).Inv :=
  ⟨by decide, by decide, by decide, by decide, by decide, by decide, by decide⟩
theorem witness_ReadsWhileBusyFault :
    (busyWith [.read .status] [.host]).phase = .busy ∧ (busyWith [.read .status] [.host]).stepKind = .read .status ∧
    Field.status ≠ .reqReady ∧ Field.status ≠ .rspValid := by decide
theorem witness_StepOutcomes :
    (busyWith [.wait] [.host]).stepKind = .hold ∧
    ((idleWith [.request wordSb]).phase = .idle ∧ (idleWith [.request wordSb]).script = .request wordSb :: []) ∧
    ((busyWith [.wait] []).phase = .busy ∧ (busyWith [.wait] []).turns = []) := by decide
theorem witness_OnlyThreeStepsWritePhase :
    (answer (step (idleWith [.request wordSb]))).isSome = true ∧ (idleWith [.request wordSb]).stepKind = .accept wordSb ∧
    (answer (step (busyWith [] []))).isSome = true ∧ (busyWith [] []).stepKind = .complete ∧
    (answer (step (idleWith [.reset none]))).isSome = true ∧ (idleWith [.reset none]).stepKind = .reset ∧
    (answer (step (idleWith [.wait]))).isSome = true ∧ (idleWith [.wait]).stepKind = .hold := by decide
theorem witness_EachRegisterHasItsWriters :
    (answer (step (shown [.read (.r 0)]))).isSome = true ∧ (shown [.read (.r 0)]).stepKind = .read (.r 0) := by decide
theorem witness_LatchesAreNotReadBeforeAccept : (idleWith [.read (.r 0)]).phase = .idle := by decide
theorem witness_StepKeepsInvariant : (busyWith [] []).Inv ∧ (answer (step (busyWith [] []))).isSome = true :=
  ⟨⟨by decide, by decide, by decide, by decide, by decide, by decide, by decide⟩, by decide⟩
theorem witness_ResetEstablishesInvariant :
    (busyWith [.reset none] [.host]).stepKind = .reset ∧ (answer (step (busyWith [.reset none] [.host]))).isSome = true := by
  decide
/-- Not vacuous: OOB_RESULT is `datapath` and R holds values. -/
theorem witness_StepKeepsLimbsCanonical :
    let s := datapathState.deliver (.mulKa oobA oobB) (kaCoeffs oobA oobB)
    s.oobResult = .datapath ∧ (∀ i, ((s.r.get i).map fun v => decide (v.toNat < 2 ^ 52)) = some true) ∧
    (answer (step s)).isSome = true := by decide
/-- Turns for the host first, then the instance. -/
theorem witness_BusyInstanceCompletes : (busyWith [.wait] [.host, .host, .block]).phase = .busy := by decide
theorem witness_ResponseBelongsToTheRequest :
    (idleWith [.request wordKa]).stepKind = .accept wordKa ∧
    (busyWith [.wait] [.host]).stepKind = .hold ∧ (answer (step (busyWith [.wait] [.host]))).isSome = true := by decide
theorem witness_ResponseBelongsToTheRequest_holds : (busyWith [.wait] [.host]).Holds wordSb := ⟨rfl, rfl, rfl, rfl⟩
/-- ACCEPT, then the host polls REQ_READY, then COMPLETE is due: n is 1. -/
theorem witness_ResponseBelongsToTheRequest_run :
    let s := State.reset.withScript [.request wordKa, .read .reqReady] [.host]
    s.stepKind = .accept wordKa ∧ ((answer (core.run 1 s)).map fun u => u.stepKind) = some (.read .reqReady) ∧
    ((answer (core.run 2 s)).map fun t => t.stepKind) = some .complete := by decide
theorem witness_WaitAndExpectDirectives :
    (shown [.wait]).script = .wait :: [] ∧ (shown [.wait]).blockMoves = false ∧
    (shown [.expect .status (.code 0b00)]).script = .expect .status (.code 0b00) :: [] ∧
    (shown [.expect .status (.code 0b00)]).blockMoves = false ∧
    (shown [.expect .status (.code 0b00)]).readField .status = some (.code 0b00) := by decide
/-- Two instances, each of which can take a step. -/
theorem witness_InstancesAreIndependent :
    let p : Platform := ⟨[busyWith [] [], idleWith [.request wordKa]]⟩
    p.wellFormed = true ∧ (0 : Nat) ≠ 1 ∧ p.insts[0]? = some (busyWith [] []) ∧
    (match p.stepAt 0 with | .next _ => true | .fault _ => false | .refused _ => false) = true ∧
    (match p.stepAt 1 with | .next _ => true | .fault _ => false | .refused _ => false) = true := by decide

end Sys2Proof.Tests
end

section
/-!
What COMPLETE, a step and a platform's step can do, said once, and from it the statements about one instance's state:
its writers (R12, R13, R27), its invariants, and the independence of instances (R28).
-/

namespace Sys2Proof.Machine

/-! ## COMPLETE -/

/-- COMPLETE ends in the response of some instruction or in the ILLEGAL_CMD response, whatever the latches hold (R91). -/
theorem complete_next_cases {s t : State} (h : complete s = .next t) :
    (∃ i cv, t = s.deliver i cv) ∨ t = s.illegalCmd := by
  rcases complete_cases s with ⟨i, cv, -, he⟩ | ⟨-, -, he⟩ <;> rw [he, Host.Outcome.next.injEq] at h
  · exact .inl ⟨i, cv, h.symm⟩
  · exact .inr h.symm

/-- PHASE after COMPLETE (R91). -/
theorem phase_of_complete {s t : State} (h : complete s = .next t) : t.phase = .idle := by
  rcases complete_next_cases h with ⟨i, cv, rfl⟩ | rfl <;> simp

/-- COMPLETE writes none of the latches, OOB_RESULT and the stream of free values (R12, R27, log 4). -/
theorem complete_frame {s t : State} (h : complete s = .next t) :
    t.lcmd = s.lcmd ∧ t.la = s.la ∧ t.lb = s.lb ∧ t.oobResult = s.oobResult ∧ t.stream = s.stream := by
  rcases complete_next_cases h with ⟨i, cv, rfl⟩ | rfl <;> simp

/-- A RESET step has one end (R113). -/
theorem step_of_reset {s : State} (h : s.stepKind = .reset) : step s = .next s.hostStep.resetBlock := by
  simp only [step, stepAs, h]

/-! ## The invariant of the response registers -/

/-- The invariant speaks of PHASE and the response registers only. -/
theorem State.Inv.congr {s t : State} (h : s.Inv) (hphase : t.phase = s.phase) (hvalid : t.rspValid = s.rspValid)
    (hstatus : t.status = s.status) (hr : t.r = s.r) (hc : t.c = s.c) : t.Inv where
  busy_shows_nothing := by rw [hphase, hvalid]; exact h.busy_shows_nothing
  shown_has_code := by rw [hvalid, hstatus]; exact h.shown_has_code
  code_is_written := by rw [hstatus]; exact h.code_is_written
  ok_has_limbs := by rw [hstatus, hr]; exact h.ok_has_limbs
  ok_has_coeffs := by rw [hstatus, hc]; exact h.ok_has_coeffs
  else_no_limbs := by rw [hstatus, hr]; exact h.else_no_limbs
  else_no_coeffs := by rw [hstatus, hc]; exact h.else_no_coeffs

/-- The host's side of a step keeps the invariant. -/
theorem State.Inv.hostStep {s : State} (h : s.Inv) : s.hostStep.Inv :=
  h.congr (by simp) (by simp) (by simp) (by simp) (by simp)

/-- Noting a READ's value keeps the invariant. -/
theorem State.Inv.note {s : State} (h : s.Inv) (v : FieldValue) : (s.note v).Inv := h.congr rfl rfl rfl rfl rfl

/-- ACCEPT keeps the invariant: it shows nothing any more and leaves STATUS, R and C (R89). -/
theorem State.Inv.accept {s : State} (h : s.Inv) (q : Request) : (s.accept q).Inv where
  busy_shows_nothing _ := rfl
  shown_has_code hv := by simp at hv
  code_is_written := h.code_is_written
  ok_has_limbs := h.ok_has_limbs
  ok_has_coeffs := h.ok_has_coeffs
  else_no_limbs := h.else_no_limbs
  else_no_coeffs := h.else_no_coeffs

/-- The reset values of the response registers agree, in either phase (R24). -/
theorem State.inv_of_resetValues {s : State} (hvalid : s.rspValid = false) (hstatus : s.status = none)
    (hr : s.r = Five.fill none) (hc : s.c = Nine.fill none) : s.Inv where
  busy_shows_nothing _ := hvalid
  shown_has_code hv := by simp [hvalid] at hv
  code_is_written := .inl hstatus
  ok_has_limbs hok := by simp [hstatus] at hok
  ok_has_coeffs hok := by simp [hstatus] at hok
  else_no_limbs _ := hr
  else_no_coeffs _ := hc

theorem State.resetBlock_inv (s : State) : s.resetBlock.Inv := State.inv_of_resetValues rfl rfl rfl rfl

/-- A response of OK with a value for every R[i] and C[k] agrees (R94). -/
theorem State.finish_ok_inv (rv : Limbs) (cv : Coeffs) (s : State) :
    (s.finish statusOk (rv.map some) (cv.map some)).Inv where
  busy_shows_nothing hb := by simp at hb
  shown_has_code _ := by simp
  code_is_written := .inr (.inl rfl)
  ok_has_limbs _ i := by simp [Five.get_map]
  ok_has_coeffs _ k := by simp [Nine.get_map]
  else_no_limbs hne := absurd rfl hne
  else_no_coeffs hne := absurd rfl hne

/-- The ILLEGAL_CMD response agrees: a code, and no values (R100). -/
theorem State.illegalCmd_inv (s : State) : s.illegalCmd.Inv where
  busy_shows_nothing hb := by simp at hb
  shown_has_code _ := by simp
  code_is_written := .inr (.inr rfl)
  ok_has_limbs hok := by simp [statusIllegalCmd, statusOk] at hok
  ok_has_coeffs hok := by simp [statusIllegalCmd, statusOk] at hok
  else_no_limbs _ := rfl
  else_no_coeffs _ := rfl

/-- A command's response agrees, computed or free (R58, R83, R93). -/
theorem State.deliver_inv (i : Instr) (cv : Coeffs) (s : State) : (s.deliver i cv).Inv := by
  rcases s.deliver_cases i cv with ⟨-, he⟩ | ⟨-, -, he⟩ <;> rw [he] <;> exact State.finish_ok_inv _ _ _

/-- Every COMPLETE establishes the invariant, whatever held before it. -/
theorem inv_of_complete {s t : State} (h : complete s = .next t) : t.Inv := by
  rcases complete_next_cases h with ⟨i, cv, rfl⟩ | rfl
  · exact State.deliver_inv _ _ _
  · exact State.illegalCmd_inv _

/-- Settles O53: RESET and COMPLETE establish the invariant, and every other step keeps it. -/
theorem stepKeepsInvariant : Obligations.StepKeepsInvariant := by
  intro s t hs hstep
  rcases step_next_cases hstep with
    ⟨-, rfl⟩ | ⟨q, -, rfl⟩ | ⟨-, hc⟩ | ⟨f, v, -, -, rfl⟩ | ⟨-, rfl⟩ | ⟨-, rfl⟩
  · exact State.resetBlock_inv _
  · exact hs.hostStep.accept q
  · exact inv_of_complete hc
  · exact (hs.note v).hostStep
  · exact hs.hostStep
  · exact hs

/-- Settles O54: both are states with the reset values. -/
theorem resetEstablishesInvariant : Obligations.ResetEstablishesInvariant := by
  refine ⟨State.inv_of_resetValues rfl rfl rfl rfl, fun s t hk hstep => ?_⟩
  rw [step_of_reset hk, Host.Outcome.next.injEq] at hstep
  exact hstep ▸ State.resetBlock_inv _

/-! ## Canonical result limbs -/

/-- Every limb the carry-propagation unit puts out is canonical (R63). -/
theorem fold_ro_get_lt (ci : Five Coeff) (i : Fin 5) : ((fold ci).ro.get i).toNat < 2 ^ 52 := by
  simp only [fold, Five.get_map, low52_toNat]
  exact Nat.mod_lt _ (by decide)

/-- Whether the limbs are canonical depends on OOB_RESULT and R only. -/
theorem State.CanonicalLimbs.congr {s t : State} (h : s.CanonicalLimbs) (hoob : t.oobResult = s.oobResult)
    (hr : t.r = s.r) : t.CanonicalLimbs := by
  unfold State.CanonicalLimbs
  rw [hoob, hr]
  exact h

theorem State.canonicalLimbs_of_no_limbs {s : State} (hr : s.r = Five.fill none) : s.CanonicalLimbs := by
  intro _ i v hv
  simp [hr, Five.get_fill] at hv

/-- A command delivers canonical limbs: under `datapath` they come from the fold, in bound or not (R93). -/
theorem State.deliver_canonicalLimbs (i : Instr) (cv : Coeffs) (s : State) : (s.deliver i cv).CanonicalLimbs := by
  intro hdp j v hv
  rw [State.deliver_oobResult] at hdp
  rw [State.deliver_of_computed cv (.inr hdp), State.finish_r, Five.get_map, Option.some.injEq] at hv
  exact hv ▸ fold_ro_get_lt _ j

/-- Settles O55: only COMPLETE puts limbs in R, and under `datapath` they are the fold's. -/
theorem stepKeepsLimbsCanonical : Obligations.StepKeepsLimbsCanonical := by
  refine ⟨State.canonicalLimbs_of_no_limbs rfl, fun s t hs hstep => ?_⟩
  rcases step_next_cases hstep with
    ⟨-, rfl⟩ | ⟨q, -, rfl⟩ | ⟨-, hc⟩ | ⟨f, v, -, -, rfl⟩ | ⟨-, rfl⟩ | ⟨-, rfl⟩
  · exact State.canonicalLimbs_of_no_limbs rfl
  · exact hs.congr (by simp) (by simp)
  · rcases complete_next_cases hc with ⟨i, cv, rfl⟩ | rfl
    · exact State.deliver_canonicalLimbs _ _ _
    · exact State.canonicalLimbs_of_no_limbs rfl
  · exact hs.congr (by simp) (by simp)
  · exact hs.congr (by simp) (by simp)
  · exact hs

/-! ## Which step writes what -/

/-- Settles O50, by the kinds of step: ACCEPT needs IDLE, COMPLETE needs BUSY, and a READ, a hold and a quiet point leave
PHASE. -/
theorem onlyThreeStepsWritePhase : Obligations.OnlyThreeStepsWritePhase := by
  intro s t hstep
  rcases step_next_cases hstep with
    ⟨hk, rfl⟩ | ⟨q, hk, rfl⟩ | ⟨hk, hc⟩ | ⟨f, v, hk, -, rfl⟩ | ⟨hk, rfl⟩ | ⟨hk, rfl⟩
  · simp [hk]
  · simp [hk, State.idle_of_accept hk]
  · simp [hk, State.busy_of_complete hk, phase_of_complete hc]
  · simp [hk]
  · simp [hk]
  · simp [hk]

/-- Settles O51, by the kinds of step. -/
theorem eachRegisterHasItsWriters : Obligations.EachRegisterHasItsWriters := by
  intro s t hstep
  rcases step_next_cases hstep with
    ⟨hk, rfl⟩ | ⟨q, hk, rfl⟩ | ⟨hk, hc⟩ | ⟨f, v, hk, -, rfl⟩ | ⟨hk, rfl⟩ | ⟨hk, rfl⟩
  · simp [hk]
  · simp [hk]
  · simpa [hk, and_assoc] using complete_frame hc
  · simp [hk]
  · simp [hk]
  · simp [hk]

/-- Settles O20: a command delivers its coefficients, and delivering writes the response only. -/
theorem commandsChangeOnlyTheResponse : Obligations.CommandsChangeOnlyTheResponse := by
  intro i s
  obtain ⟨cv, he, -⟩ := exec_cases i s
  exact ⟨s.deliver i cv, he, by simp⟩

/-- Settles O35, by R24's values in `State.reset`. -/
theorem resetStateHoldsResetValues : Obligations.ResetStateHoldsResetValues :=
  ⟨rfl, rfl, rfl, rfl, rfl, rfl⟩

/-! ## The latches -/

/-- The same state with other latches. -/
def State.withLatches (x : Byte) (a b : Limbs) (s : State) : State := { s with lcmd := x, la := a, lb := b }

section
variable (x : Byte) (a b : Limbs) (s : State)

/-- The latches do not decide which step is due. -/
@[simp] theorem State.stepKind_withLatches : (s.withLatches x a b).stepKind = s.stepKind := rfl

@[simp] theorem State.readField_withLatches (f : Field) : (s.withLatches x a b).readField f = s.readField f := rfl

@[simp] theorem State.note_withLatches (v : FieldValue) :
    (s.withLatches x a b).note v = (s.note v).withLatches x a b := rfl

/-- ACCEPT overwrites the latches (R89). -/
@[simp] theorem State.accept_withLatches (q : Request) : (s.withLatches x a b).accept q = s.accept q := rfl

/-- RESET leaves nothing of the latches (R24). -/
@[simp] theorem State.resetBlock_withLatches : (s.withLatches x a b).resetBlock = s.resetBlock := rfl

@[simp] theorem State.passTurn_withLatches : (s.withLatches x a b).passTurn = s.passTurn.withLatches x a b := by
  cases h : s.phase with
  | idle => rw [State.passTurn_idle h, State.passTurn_idle (s := s.withLatches x a b) h]
  | busy => rw [State.passTurn_busy h, State.passTurn_busy (s := s.withLatches x a b) h]; rfl

@[simp] theorem State.advanceScript_withLatches :
    (s.withLatches x a b).advanceScript = s.advanceScript.withLatches x a b := by
  cases h : s.script with
  | nil => rw [State.advanceScript_nil h, State.advanceScript_nil (s := s.withLatches x a b) h]
  | cons d rest => rw [State.advanceScript_cons h, State.advanceScript_cons (s := s.withLatches x a b) h]; rfl

@[simp] theorem State.hostStep_withLatches : (s.withLatches x a b).hostStep = s.hostStep.withLatches x a b := by
  simp [State.hostStep]

end

/-- Settles O52: no COMPLETE is due while IDLE; RESET and ACCEPT overwrite the latches, and every other step carries them
along. -/
theorem latchesAreNotReadBeforeAccept : Obligations.LatchesAreNotReadBeforeAccept := by
  intro s x a b hidle
  change (∃ t t', step s = .next t ∧ step (s.withLatches x a b) = .next t' ∧
    t' = t.withLatches t'.lcmd t'.la t'.lb) ∨ ∃ f, step s = .fault f ∧ step (s.withLatches x a b) = .fault f
  simp only [step, State.stepKind_withLatches]
  cases hk : s.stepKind with
  | reset => exact .inl ⟨s.hostStep.resetBlock, s.hostStep.resetBlock, rfl, by simp [stepAs], rfl⟩
  | accept q => exact .inl ⟨s.hostStep.accept q, s.hostStep.accept q, rfl, by simp [stepAs], rfl⟩
  | complete => exact absurd (State.busy_of_complete hk) (by simp [hidle])
  | read f =>
    cases hv : s.readField f with
    | none => exact .inr ⟨.hostReadInvalid f, by simp [stepAs, readStep, hv], by simp [stepAs, readStep, hv]⟩
    | some v =>
      exact .inl ⟨(s.note v).hostStep, (s.note v).hostStep.withLatches x a b, by simp [stepAs, readStep, hv],
        by simp [stepAs, readStep, hv], rfl⟩
  | hold => exact .inl ⟨s.hostStep, s.hostStep.withLatches x a b, rfl, by simp [stepAs], rfl⟩
  | quiet => exact .inl ⟨s, s.withLatches x a b, rfl, rfl, rfl⟩

/-! ## Several instances -/

/-- A platform's step at a place with an instance is that instance's own step. -/
theorem Platform.stepAt_of_step {p : Platform} {j : Nat} {s t : State} (hs : p.insts[j]? = some s)
    (hstep : step s = .next t) : p.stepAt j = .next ⟨p.insts.set j t⟩ := by
  simp only [Platform.stepAt, hs, hstep]

/-- A platform's step at j writes place j only and reads place j only: every platform with the same there is written the
same there. (Where j is no place, `set` writes nothing.) -/
theorem Platform.stepAt_local {p p' : Platform} {j : Nat} (h : p.stepAt j = .next p') :
    ∃ t, p' = ⟨p.insts.set j t⟩ ∧
      ∀ q : Platform, q.insts[j]? = p.insts[j]? → q.stepAt j = .next ⟨q.insts.set j t⟩ := by
  have hset : ∀ q : Platform, q.insts[j]? = none → q = ⟨q.insts.set j State.reset⟩ := fun q hq => by
    rw [List.set_eq_of_length_le (List.getElem?_eq_none_iff.mp hq)]
  cases hj : p.insts[j]? with
  | none =>
    simp only [Platform.stepAt, hj, Host.Outcome.next.injEq] at h
    refine ⟨State.reset, h ▸ hset p hj, fun q hq => ?_⟩
    rw [← hset q hq]
    simp only [Platform.stepAt, hq]
  | some s =>
    cases hstep : step s with
    | next t =>
      rw [Platform.stepAt_of_step hj hstep, Host.Outcome.next.injEq] at h
      exact ⟨t, h.symm, fun q hq => Platform.stepAt_of_step hq hstep⟩
    | fault f => simp [Platform.stepAt, hj, hstep] at h
    | refused r => simp [Platform.stepAt, hj, hstep] at h

/-- Settles O59: two steps at different places read and write different places, and so commute. -/
theorem instancesAreIndependent : Obligations.InstancesAreIndependent := by
  refine ⟨fun p p' j k h hjk => ?_, fun p j s t hs hstep => ?_, fun p p1 p2 j k hjk h1 h2 => ?_⟩
  · obtain ⟨t, rfl, -⟩ := Platform.stepAt_local h
    simp [Platform.numInstances, List.getElem?_set_ne hjk]
  · obtain ⟨hj, -⟩ := List.getElem?_eq_some_iff.mp hs
    exact ⟨_, Platform.stepAt_of_step hs hstep, List.getElem?_set_self hj⟩
  · obtain ⟨t, rfl, hj⟩ := Platform.stepAt_local h1
    obtain ⟨u, rfl, hk⟩ := Platform.stepAt_local h2
    refine ⟨_, hk _ (List.getElem?_set_ne hjk), ?_⟩
    rw [hj _ (List.getElem?_set_ne hjk.symm), List.set_comm _ _ hjk]

end Sys2Proof.Machine
end

section
/-!
What READs return after a READ (R32), and how a request stays with its instance from ACCEPT to the response COMPLETE
gives it (R34, R101).
-/

namespace Sys2Proof.Machine

/-! ## READ -/

/-- What a READ returns depends on PHASE and the response registers only (R95). -/
theorem State.readField_congr {s t : State} (hphase : t.phase = s.phase) (hvalid : t.rspValid = s.rspValid)
    (hstatus : t.status = s.status) (hr : t.r = s.r) (hc : t.c = s.c) (f : Field) : t.readField f = s.readField f := by
  cases f <;> simp only [State.readField, State.reqReady, hphase, hvalid, hstatus, hr, hc]

/-- Settles O47: a READ writes neither PHASE nor a response register. -/
theorem readsAreIdempotent : Obligations.ReadsAreIdempotent := by
  intro s t f hk hstep
  obtain ⟨-, -, -, hphase⟩ := onlyThreeStepsWritePhase s t hstep
  obtain ⟨-, hresponse, hvalid, -⟩ := eachRegisterHasItsWriters s t hstep
  obtain ⟨hr, hc, hstatus⟩ := hresponse (by simp [hk]) (by simp [hk])
  exact State.readField_congr (hphase (by simp [hk]) (by simp [hk]) (by simp [hk]))
    (hvalid (by simp [hk]) (by simp [hk]) (by simp [hk])) hstatus hr hc

/-! ## The request an instance holds -/

/-- An ACCEPT step has one end (R89). -/
theorem step_of_accept {s : State} {q : Request} (h : s.stepKind = .accept q) :
    step s = .next (s.hostStep.accept q) := by
  simp only [step, stepAs, h]

/-- An ACCEPT leaves the instance holding the request (R89). -/
theorem State.holds_accept (q : Request) (s : State) : (s.accept q).Holds q := ⟨rfl, rfl, rfl, rfl⟩

/-- The latches decode as the request held does (R15–R17, R38). -/
theorem State.Holds.latched {s : State} {q : Request} (h : s.Holds q) : s.latched = decode q := by
  simp only [State.latched, decode, h.cmd, h.opA, h.opB]

/-- A BUSY instance accepts nothing, so only a COMPLETE or a RESET takes the request from it (R34, R90). -/
theorem State.Holds.after_step {s t : State} {q : Request} (h : s.Holds q) (hstep : step s = .next t)
    (hcomplete : s.stepKind ≠ .complete) (hreset : s.stepKind ≠ .reset) : t.Holds q := by
  have haccept : ∀ q', s.stepKind ≠ .accept q' := fun q' hk => absurd (State.idle_of_accept hk) (by simp [h.busy])
  obtain ⟨-, -, -, hphase⟩ := onlyThreeStepsWritePhase s t hstep
  obtain ⟨hlatches, -⟩ := eachRegisterHasItsWriters s t hstep
  obtain ⟨hcmd, ha, hb⟩ := hlatches haccept hreset
  exact ⟨(hphase haccept hcomplete hreset).trans h.busy, hcmd.trans h.cmd, ha.trans h.opA, hb.trans h.opB⟩

/-- A run that begins with the ACCEPT of q and takes no COMPLETE and no RESET after it ends with q held. -/
theorem State.holds_of_run {s : State} {q : Request} (haccept : s.stepKind = .accept q) (n : Nat) {t : State}
    (hrun : core.run (n + 1) s = .next t)
    (hbetween : ∀ m u, 1 ≤ m → m ≤ n → core.run m s = .next u → u.stepKind ≠ .complete ∧ u.stepKind ≠ .reset) :
    t.Holds q := by
  induction n generalizing t with
  | zero =>
    rw [run_succ_of_next (step_of_accept haccept), run_zero] at hrun
    cases hrun
    exact State.holds_accept q _
  | succ n ih =>
    obtain ⟨u, hu, hstep⟩ := (run_succ_next_iff (n + 1) s t).mp hrun
    obtain ⟨hcomplete, hreset⟩ := hbetween (n + 1) u (by omega) le_rfl hu
    exact (ih hu fun m v h1 hm => hbetween m v h1 (by omega)).after_step hstep hcomplete hreset

/-! ## The response to the request held -/

/-- A COMPLETE step: a turn passes, and the instance completes (R91). -/
theorem step_of_complete {s : State} (h : s.stepKind = .complete) : step s = complete s.passTurn := by
  simp only [step, stepAs, h]

@[simp] theorem State.latched_passTurn (s : State) : s.passTurn.latched = s.latched := by
  simp only [State.latched, State.passTurn_lcmd, State.passTurn_la, State.passTurn_lb]

/-- COMPLETE of a word that is no instruction is the ILLEGAL_CMD response (R100). -/
theorem complete_of_error {s : State} {e : DecodeError} (h : s.latched = .error e) :
    complete s = .next s.illegalCmd := by
  simp only [complete, h]

/-- COMPLETE of a request that is an instruction has that instruction's effect (R34, R91). -/
theorem State.Holds.step_complete_ok {s : State} {q : Request} {i : Instr} (h : s.Holds q)
    (hk : s.stepKind = .complete) (hi : decode q = .ok i) :
    step s = exec i { s with turns := s.turns.tail } := by
  rw [step_of_complete hk, complete_of_ok (i := i) (by rw [State.latched_passTurn, h.latched, hi]),
    State.passTurn_busy h.busy]

/-- COMPLETE of a request that is no instruction gives the ILLEGAL_CMD response (R34, R100). -/
theorem State.Holds.step_complete_error {s : State} {q : Request} {e : DecodeError} (h : s.Holds q)
    (hk : s.stepKind = .complete) (he : decode q = .error e) : step s = .next s.passTurn.illegalCmd := by
  rw [step_of_complete hk, complete_of_error (e := e) (by rw [State.latched_passTurn, h.latched, he])]

/-- Settles O57: the request is held from its ACCEPT on, by induction on the steps between, and the latches it is held in
are what COMPLETE decodes. -/
theorem responseBelongsToTheRequest : Obligations.ResponseBelongsToTheRequest := by
  refine ⟨fun s q hk => ⟨_, step_of_accept hk, State.holds_accept q _⟩,
    fun s t q h hstep hcomplete hreset => h.after_step hstep hcomplete hreset,
    fun s t q n haccept hrun hbetween => ?_,
    fun s t hstep hcomplete hreset => ?_⟩
  · have h : t.Holds q := State.holds_of_run haccept n hrun hbetween
    exact ⟨h, fun hk => ⟨fun i hi => h.step_complete_ok hk hi,
      fun e he => ⟨_, h.step_complete_error hk he, by simp⟩⟩⟩
  · obtain ⟨-, hresponse, -⟩ := eachRegisterHasItsWriters s t hstep
    obtain ⟨hr, hc, hstatus⟩ := hresponse hcomplete hreset
    exact ⟨hstatus, hr, hc⟩

end Sys2Proof.Machine
end

section
/-!
Vectors laid out in a word: where the parts of R36's and R40's concatenations lie, and a word's bits by field.
-/

namespace Sys2Proof

/-- Five limbs concatenated above a word, L0 next to it: how R36 and R40 lay out a limb vector. -/
def Five.above {w : Nat} (x : Limbs) (lo : BitVec w) : BitVec (64 + (64 + (64 + (64 + (64 + w))))) :=
  x.l4 ++ (x.l3 ++ (x.l2 ++ (x.l1 ++ (x.l0 ++ lo))))

/-- The high part of a concatenation, at the bits above the low part. -/
theorem extractLsb'_append_high {v w start : Nat} (hi : BitVec v) (lo : BitVec w) (h : start = w) :
    (hi ++ lo).extractLsb' start v = hi := by
  rw [BitVec.extractLsb'_append_eq_of_le h.ge, h, Nat.sub_self, BitVec.extractLsb'_eq_self]

/-- Limb i is the i-th 64 bits above the low word. -/
theorem Five.extractLsb'_above_get {w : Nat} (x : Limbs) (lo : BitVec w) (i : Fin 5) :
    (x.above lo).extractLsb' (w + 64 * i.val) 64 = x.get i := by
  revert i
  refine Five.forall_iff.mpr ⟨?_, ?_, ?_, ?_, ?_⟩ <;>
    simp (disch := omega) only [Five.above, Five.get, BitVec.extractLsb'_append_eq_of_add_le, extractLsb'_append_high]

/-- The low word's bits are not moved. -/
theorem Five.extractLsb'_above_low {w start len : Nat} (x : Limbs) (lo : BitVec w) (h : start + len ≤ w) :
    (x.above lo).extractLsb' start len = lo.extractLsb' start len := by
  simp (disch := omega) only [Five.above, BitVec.extractLsb'_append_eq_of_add_le]

/-- Nine coefficients concatenated above a word, C0 next to it: how R40 lays out the coefficients. -/
def Nine.above {w : Nat} (x : Coeffs) (lo : BitVec w) :
    BitVec (128 + (128 + (128 + (128 + (128 + (128 + (128 + (128 + (128 + w))))))))) :=
  x.c8 ++ (x.c7 ++ (x.c6 ++ (x.c5 ++ (x.c4 ++ (x.c3 ++ (x.c2 ++ (x.c1 ++ (x.c0 ++ lo))))))))

/-- Coefficient k is the k-th 128 bits above the low word. -/
theorem Nine.extractLsb'_above_get {w : Nat} (x : Coeffs) (lo : BitVec w) (k : Fin 9) :
    (x.above lo).extractLsb' (w + 128 * k.val) 128 = x.get k := by
  revert k
  refine Nine.forall_iff.mpr ⟨?_, ?_, ?_, ?_, ?_, ?_, ?_, ?_, ?_⟩ <;>
    simp (disch := omega) only [Nine.above, Nine.get, BitVec.extractLsb'_append_eq_of_add_le, extractLsb'_append_high]

/-- The low word's bits are not moved. -/
theorem Nine.extractLsb'_above_low {w start len : Nat} (x : Coeffs) (lo : BitVec w) (h : start + len ≤ w) :
    (x.above lo).extractLsb' start len = lo.extractLsb' start len := by
  simp (disch := omega) only [Nine.above, BitVec.extractLsb'_append_eq_of_add_le]

/-- A bit of a field is that bit of the word. -/
theorem getLsbD_of_extractLsb' {w start len j : Nat} {x : BitVec w} {v : BitVec len}
    (h : x.extractLsb' start len = v) (hj : j < len) : x.getLsbD (start + j) = v.getLsbD j := by
  rw [← h, BitVec.getLsbD_extractLsb', decide_eq_true hj, Bool.true_and]

/-- Two words with the same bits in a field agree on each bit of it. -/
theorem getLsbD_eq_of_extractLsb'_eq {w start len n : Nat} {x y : BitVec w}
    (h : x.extractLsb' start len = y.extractLsb' start len) (hstart : start ≤ n) (hend : n < start + len) :
    x.getLsbD n = y.getLsbD n := by
  obtain ⟨j, rfl⟩ := Nat.exists_eq_add_of_le hstart
  have hj : j < len := by omega
  rw [getLsbD_of_extractLsb' h hj, getLsbD_of_extractLsb' rfl hj]

end Sys2Proof
end

section
/-!
Request words: their fields (R36, R37), decoding and encoding (R38, R44), and their bytes on a platform's bus (R46).
-/

namespace Sys2Proof

/-! ## The fields of a request word -/

theorem assemble_eq_above (cmd : Byte) (a b : Limbs) : assemble cmd a b = b.above (a.above cmd) := rfl

theorem get_reqA (q : Request) (i : Fin 5) : (reqA q).get i = q.extractLsb' (8 + 64 * i.val) 64 :=
  Five.get_tabulate _ i

theorem get_reqB (q : Request) (i : Fin 5) : (reqB q).get i = q.extractLsb' (328 + 64 * i.val) 64 :=
  Five.get_tabulate _ i

/-- Operand A of an assembled word (R36, R44). -/
theorem reqA_assemble (cmd : Byte) (a b : Limbs) : reqA (assemble cmd a b) = a := by
  refine Five.ext_get fun i => ?_
  rw [get_reqA, assemble_eq_above, Five.extractLsb'_above_low _ _ (by omega), Five.extractLsb'_above_get]

/-- Operand B of an assembled word (R36, R44). -/
theorem reqB_assemble (cmd : Byte) (a b : Limbs) : reqB (assemble cmd a b) = b := by
  refine Five.ext_get fun i => ?_
  rw [get_reqB, assemble_eq_above]
  exact Five.extractLsb'_above_get b _ i

/-- The three fields hold every bit of a word, so they determine it (R36: "No bit is unused"). -/
theorem request_eq_of_fields {p q : Request} (hcmd : reqCmd p = reqCmd q) (ha : reqA p = reqA q)
    (hb : reqB p = reqB q) : p = q := by
  refine BitVec.eq_of_getLsbD_eq fun n hn => ?_
  by_cases hA : n < 8
  · exact getLsbD_eq_of_extractLsb'_eq hcmd (Nat.zero_le n) (by omega)
  by_cases hB : n < 328
  · have hlimb := congrArg (fun v => v.get ⟨(n - 8) / 64, by omega⟩) ha
    simp only [get_reqA] at hlimb
    exact getLsbD_eq_of_extractLsb'_eq hlimb (by omega) (by omega)
  · have hlimb := congrArg (fun v => v.get ⟨(n - 328) / 64, by omega⟩) hb
    simp only [get_reqB] at hlimb
    exact getLsbD_eq_of_extractLsb'_eq hlimb (by omega) (by omega)

/-- A word is its fields assembled. -/
theorem assemble_fields (q : Request) : assemble (reqCmd q) (reqA q) (reqB q) = q :=
  request_eq_of_fields (reqCmd_assemble _ _ _) (reqA_assemble _ _ _) (reqB_assemble _ _ _)

/-- Settles O28: each field is read back from an assembled word, and the fields determine a word. -/
theorem requestFieldsAtTheirBits : Obligations.RequestFieldsAtTheirBits := by
  refine ⟨fun cmd a b => ⟨reqCmd_assemble cmd a b, fun i => ?_, fun i => ?_⟩, assemble_fields⟩
  · rw [← get_reqA, reqA_assemble]
  · rw [← get_reqB, reqB_assemble]

/-! ## The command byte -/

/-- R38's table, row by row. -/
theorem decodeCmd_cases (cmd : Byte) :
    (cmd = 0x00 ∧ decodeCmd cmd = .mulSb) ∨ (cmd = 0x01 ∧ decodeCmd cmd = .mulKa) ∨
    (cmd ≠ 0x00 ∧ cmd ≠ 0x01 ∧ decodeCmd cmd = .illegal) := by
  unfold decodeCmd
  split_ifs with h0 h1
  · exact .inl ⟨h0, rfl⟩
  · exact .inr (.inl ⟨h1, rfl⟩)
  · exact .inr (.inr ⟨h0, h1, rfl⟩)

theorem decodeCmd_eq_mulSb_iff (cmd : Byte) : decodeCmd cmd = .mulSb ↔ cmd = 0x00 := by
  rcases decodeCmd_cases cmd with ⟨rfl, h⟩ | ⟨rfl, h⟩ | ⟨h0, -, h⟩ <;> simp_all

theorem decodeCmd_eq_mulKa_iff (cmd : Byte) : decodeCmd cmd = .mulKa ↔ cmd = 0x01 := by
  rcases decodeCmd_cases cmd with ⟨rfl, h⟩ | ⟨rfl, h⟩ | ⟨-, h1, h⟩ <;> simp_all

theorem decodeCmd_eq_illegal_iff (cmd : Byte) : decodeCmd cmd = .illegal ↔ cmd ≠ 0x00 ∧ cmd ≠ 0x01 := by
  rcases decodeCmd_cases cmd with ⟨rfl, h⟩ | ⟨rfl, h⟩ | ⟨h0, h1, h⟩ <;> simp_all

/-- CMD is its two fields: `RSVD` above `ALG` (R37). -/
theorem toNat_cmd_eq_fields (cmd : Byte) : cmd.toNat = 4 * (cmdRsvd cmd).toNat + (cmdAlg cmd).toNat := by
  have hcmd := cmd.isLt
  simp only [cmdRsvd, cmdAlg, BitVec.extractLsb'_toNat, Nat.shiftRight_eq_div_pow]
  omega

/-- CMD is a value below 4 exactly when `RSVD` is 0 and `ALG` is that value (R37). -/
theorem cmd_eq_iff_fields (cmd : Byte) (alg : BitVec 2) :
    cmd = alg.setWidth 8 ↔ cmdRsvd cmd = 0 ∧ cmdAlg cmd = alg := by
  have hfields := toNat_cmd_eq_fields cmd
  have halg := alg.isLt
  have halg' := (cmdAlg cmd).isLt
  simp only [← BitVec.toNat_inj, BitVec.toNat_setWidth, BitVec.ofNat_eq_ofNat, BitVec.toNat_ofNat]
  omega

/-- The illegal values of CMD, by its fields (R38, R39). -/
theorem cmd_illegal_iff_fields (cmd : Byte) :
    (cmd ≠ 0x00 ∧ cmd ≠ 0x01) ↔ cmdRsvd cmd ≠ 0 ∨ cmdAlg cmd = 0b10 ∨ cmdAlg cmd = 0b11 := by
  have h0 := cmd_eq_iff_fields cmd 0
  have h1 := cmd_eq_iff_fields cmd 1
  have halg : cmdAlg cmd = 0b00 ∨ cmdAlg cmd = 0b01 ∨ cmdAlg cmd = 0b10 ∨ cmdAlg cmd = 0b11 := by
    generalize cmdAlg cmd = alg
    revert alg
    decide
  rcases halg with h | h | h | h <;> simp_all

/-! ## Decoding -/

/-- What decodes to `mul.sb` (R38). -/
theorem decodeParts_mulSb {cmd : Byte} (h : decodeCmd cmd = .mulSb) (a b : Limbs) :
    decodeParts cmd a b = .ok (.mulSb a b) := by
  simp only [decodeParts, h]

/-- What decodes to `mul.ka` (R38). -/
theorem decodeParts_mulKa {cmd : Byte} (h : decodeCmd cmd = .mulKa) (a b : Limbs) :
    decodeParts cmd a b = .ok (.mulKa a b) := by
  simp only [decodeParts, h]

/-- What decodes to no instruction (R39). -/
theorem decodeParts_illegal {cmd : Byte} (h : decodeCmd cmd = .illegal) (a b : Limbs) :
    decodeParts cmd a b = .error (.illegalCmd cmd) := by
  simp only [decodeParts, h]

/-- All but two of the 256 values are illegal (R39): those from 2 on. -/
theorem count_illegal_commands :
    ((List.range 256).filter fun n => decodeCmd (BitVec.ofNat 8 n) == .illegal).length = 254 := by
  have hillegal : ∀ n ∈ List.range' 2 254, (decodeCmd (BitVec.ofNat 8 n) == .illegal) = true := by
    intro n hn
    rw [List.mem_range'_1] at hn
    rw [beq_iff_eq, decodeCmd_eq_illegal_iff]
    constructor <;> bv_omega
  have hsplit : List.range 256 = [0, 1] ++ List.range' 2 254 := by
    rw [List.range_eq_range']; rfl
  rw [hsplit, List.filter_append, List.filter_eq_self.mpr hillegal, List.length_append, List.length_range']
  rfl

/-- Settles O27: CMD is its two fields, so each outcome is a condition on them. -/
theorem commandDecodeIsTotal : Obligations.CommandDecodeIsTotal := by
  refine ⟨fun cmd => ⟨rfl, rfl, decodeCmd_eq_mulSb_iff cmd, decodeCmd_eq_mulKa_iff cmd, ?_, ?_, ?_⟩, count_illegal_commands,
    fun q => ⟨fun h => decodeParts_mulSb h _ _, fun h => decodeParts_mulKa h _ _, fun h => decodeParts_illegal h _ _⟩⟩
  · exact (decodeCmd_eq_mulSb_iff cmd).trans (cmd_eq_iff_fields cmd 0)
  · exact (decodeCmd_eq_mulKa_iff cmd).trans (cmd_eq_iff_fields cmd 1)
  · exact (decodeCmd_eq_illegal_iff cmd).trans (cmd_illegal_iff_fields cmd)

/-! ## Decoding and encoding -/

/-- Decoding an assembled word decodes its parts. -/
theorem decode_assemble (cmd : Byte) (a b : Limbs) : decode (assemble cmd a b) = decodeParts cmd a b := by
  simp only [decode, reqCmd_assemble, reqA_assemble, reqB_assemble]

/-- Decoding inverts encoding, by the instruction. -/
theorem decode_encode (i : Instr) : decode (encode i) = .ok i := by
  cases i with
  | mulSb a b => exact (decode_assemble _ a b).trans (decodeParts_mulSb rfl a b)
  | mulKa a b => exact (decode_assemble _ a b).trans (decodeParts_mulKa rfl a b)

/-- Settles O29: the fields of an encoding are the instruction's command and operands, and decode as such. -/
theorem decodeOfEncode : Obligations.DecodeOfEncode := fun i _ => decode_encode i

/-- A word decodes to an instruction whose encoding it is, or its CMD is illegal (R38, R39). -/
theorem decode_cases (q : Request) :
    (∃ i, decode q = .ok i ∧ encode i = q) ∨ decode q = .error (.illegalCmd (reqCmd q)) := by
  cases h : decodeCmd (reqCmd q) with
  | mulSb =>
    refine .inl ⟨_, decodeParts_mulSb h _ _, ?_⟩
    rw [encode, ← (decodeCmd_eq_mulSb_iff _).mp h, assemble_fields]
  | mulKa =>
    refine .inl ⟨_, decodeParts_mulKa h _ _, ?_⟩
    rw [encode, ← (decodeCmd_eq_mulKa_iff _).mp h, assemble_fields]
  | illegal => exact .inr (decodeParts_illegal h _ _)

theorem Instr.wellFormed_eq_true (i : Instr) : i.wellFormed = true := by
  cases i <;> rfl

/-- Settles O30: a word that decodes is its fields assembled, and an encoding always decodes. -/
theorem encodeOfDecode : Obligations.EncodeOfDecode := by
  refine ⟨fun q i hi => ?_, fun q e he => ?_⟩
  · rcases decode_cases q with ⟨j, hj, hq⟩ | hq
    · cases hj.symm.trans hi
      exact ⟨hq, i.wellFormed_eq_true⟩
    · cases hq.symm.trans hi
  · rcases decode_cases q with ⟨j, hj, -⟩ | hq
    · cases hj.symm.trans he
    · cases hq.symm.trans he
      refine ⟨rfl, fun i hi => ?_⟩
      have hdec := decode_encode i
      rw [hi, hq] at hdec
      cases hdec

-- The written-out words are numbers below 2^648, which evaluating them computes.
set_option exponentiation.threshold 648 in
/-- Settles O31: the two written-out words are encodings, and 0x80 is no command. -/
theorem writtenOutWordsDecode : Obligations.WrittenOutWordsDecode :=
  ⟨rfl, rfl, rfl⟩

/-! ## A platform's byte bus -/

/-- Byte j of a word is its bits [8j+7 : 8j] (R46). -/
theorem getElem?_bytesLow {w n j : Nat} (x : BitVec w) (hj : j < n) :
    (bytesLow n x)[j]? = some (x.extractLsb' (8 * j) 8) := by
  simp [bytesLow, hj]

@[simp] theorem length_bytesLow {w : Nat} (n : Nat) (x : BitVec w) : (bytesLow n x).length = n := by
  simp [bytesLow]

@[simp] theorem length_toBytes {w : Nat} (order : Config.SerialByteOrder) (n : Nat) (x : BitVec w) :
    (toBytes order n x).length = n := by
  cases order <;> simp [toBytes]

/-- Under `little`, byte j goes j-th (R46). -/
theorem getElem?_toBytes_little {w n j : Nat} (x : BitVec w) (hj : j < n) :
    (toBytes .little n x)[j]? = some (x.extractLsb' (8 * j) 8) := getElem?_bytesLow x hj

/-- Under `big`, the order is reversed (R46). -/
theorem getElem?_toBytes_big {w n j : Nat} (x : BitVec w) (hj : j < n) :
    (toBytes .big n x)[j]? = some (x.extractLsb' (8 * (n - 1 - j)) 8) := by
  rw [toBytes, List.getElem?_reverse (by simpa using hj), length_bytesLow, getElem?_bytesLow x (by omega)]

theorem natOfBytes_concat (ys : List Byte) (y : Byte) :
    natOfBytes (ys ++ [y]) = natOfBytes ys + 256 ^ ys.length * y.toNat := by
  induction ys with
  | nil => simp [natOfBytes]
  | cons z zs ih =>
    simp only [List.cons_append, natOfBytes, ih, List.length_cons]
    ring

/-- The low n bytes of a word are its low 8n bits. -/
theorem natOfBytes_bytesLow {w : Nat} (n : Nat) (x : BitVec w) : natOfBytes (bytesLow n x) = x.toNat % 256 ^ n := by
  induction n with
  | zero => simp [bytesLow, natOfBytes, Nat.mod_one]
  | succ n ih =>
    have hsplit : bytesLow (n + 1) x = bytesLow n x ++ [x.extractLsb' (8 * n) 8] := by
      simp [bytesLow, List.range_succ]
    have hbyte : (x.extractLsb' (8 * n) 8).toNat = x.toNat / 256 ^ n % 256 := by
      rw [BitVec.extractLsb'_toNat, Nat.shiftRight_eq_div_pow, pow_mul]
      rfl
    rw [hsplit, natOfBytes_concat, ih, length_bytesLow, hbyte, pow_succ, Nat.mod_mul]

/-- A word of n bytes is read back from them, in either order (R46). -/
theorem ofBytes_toBytes (order : Config.SerialByteOrder) (n : Nat) (x : BitVec (8 * n)) :
    ofBytes order (8 * n) (toBytes order n x) = x := by
  have hall : x.toNat % 256 ^ n = x.toNat := Nat.mod_eq_of_lt (by simpa [pow_mul] using x.isLt)
  cases order <;> simp [ofBytes, toBytes, natOfBytes_bytesLow, hall]

/-- The bytes of a request decode as the word does (R46). -/
theorem decodeBytes_requestBytes (order : Config.SerialByteOrder) (q : Request) :
    decodeBytes order (requestBytes order q) = decode q := by
  rw [decodeBytes, if_pos (show (requestBytes order q).length = 81 from length_toBytes order 81 q)]
  exact congrArg decode (ofBytes_toBytes order 81 q)

/-- Settles O32: a word's bytes by place, and their number written in base 256 is the word. -/
theorem serialisedRequestDecodes : Obligations.SerialisedRequestDecodes :=
  ⟨fun q _ hj => ⟨getElem?_toBytes_little q hj, getElem?_toBytes_big q hj⟩,
    fun q => getElem?_toBytes_little q (by decide),
    fun w _ hj => ⟨getElem?_toBytes_little w hj, getElem?_toBytes_big w hj⟩,
    decodeBytes_requestBytes,
    fun _ _ hlen => if_neg hlen⟩

end Sys2Proof
end

section
/-!
Source lines as request words (R44).
-/

namespace Sys2Proof

/-! ## Limb vectors as written numbers -/

theorem limbsOk_toNat (x : Limbs) : limbsOk (x.toList.map BitVec.toNat) = true := by
  simp only [limbsOk, Bool.and_eq_true, beq_iff_eq, List.all_eq_true, decide_eq_true_eq, List.mem_map]
  refine ⟨rfl, ?_⟩
  rintro _ ⟨y, -, rfl⟩
  exact y.isLt

theorem limbsOfList_toNat (x : Limbs) : limbsOfList (x.toList.map BitVec.toNat) = some x := by
  simp [limbsOfList, Five.toList]

/-- Five numbers are a limb vector. -/
theorem limbsOfList_of_limbsOk {xs : List Nat} (h : limbsOk xs = true) : ∃ x, limbsOfList xs = some x := by
  simp only [limbsOk, Config.NLIMBS, Bool.and_eq_true, beq_iff_eq] at h
  obtain ⟨hlen, -⟩ := h
  match xs, hlen with
  | [_, _, _, _, _], _ => exact ⟨_, rfl⟩

/-- The word of an operand pair written as numbers. -/
theorem requestOfNumbers_toNat (byte : Nat) (a b : Limbs) :
    requestOfNumbers byte (a.toList.map BitVec.toNat) (b.toList.map BitVec.toNat) =
      some (assemble (BitVec.ofNat 8 byte) a b) := by
  simp only [requestOfNumbers, limbsOfList_toNat]

/-- Two vectors of five numbers make a request line's directive. -/
theorem request_of_limbsOk (byte : Nat) {a b : List Nat} (h : (limbsOk a && limbsOk b) = true) :
    ∃ d, (requestOfNumbers byte a b).map Directive.request = some d := by
  obtain ⟨ha, hb⟩ := Bool.and_eq_true_iff.mp h
  obtain ⟨va, hva⟩ := limbsOfList_of_limbsOk ha
  obtain ⟨vb, hvb⟩ := limbsOfList_of_limbsOk hb
  exact ⟨.request (assemble (BitVec.ofNat 8 byte) va vb), by simp only [requestOfNumbers, hva, hvb, Option.map_some]⟩

/-! ## Assembling a line -/

/-- A line that is not well formed does not assemble. -/
theorem SourceLine.wellFormed_of_lower {l : SourceLine} {d : Directive} (h : l.lower = some d) :
    l.wellFormed = true := by
  by_contra hwf
  simp [SourceLine.lower, hwf] at h

/-- A well-formed line assembles, by the kind of line. -/
theorem SourceLine.lower_of_wellFormed {l : SourceLine} (h : l.wellFormed = true) : ∃ d, l.lower = some d := by
  unfold SourceLine.lower
  rw [if_pos h]
  cases l with
  | mulSb a b => exact request_of_limbsOk 0x00 h
  | mulKa a b => exact request_of_limbsOk 0x01 h
  | cmd byte a b =>
    rw [SourceLine.wellFormed, Bool.and_assoc, Bool.and_eq_true] at h
    exact request_of_limbsOk byte h.2
  | reset => exact ⟨_, rfl⟩
  | wait => exact ⟨_, rfl⟩
  | read f => exact ⟨_, rfl⟩
  | expect f v => exact ⟨_, rfl⟩

/-- Settles O34: limbs written as numbers pass R44's checks and give the same limbs back. -/
theorem requestLinesAssemble : Obligations.RequestLinesAssemble := by
  refine ⟨fun cmd a b => ⟨?_, ?_, ?_⟩,
    fun l => ⟨SourceLine.lower_of_wellFormed, fun ⟨_, hd⟩ => SourceLine.wellFormed_of_lower hd⟩⟩
  · simp [SourceLine.lower, SourceLine.wellFormed, limbsOk_toNat, requestOfNumbers_toNat]
  · simp [SourceLine.lower, SourceLine.wellFormed, limbsOk_toNat, requestOfNumbers_toNat]
  · simp [SourceLine.lower, SourceLine.wellFormed, limbsOk_toNat, requestOfNumbers_toNat, Config.CMD_BITS, cmd.isLt]

end Sys2Proof
end

section
/-!
The response word: its fields, and its bits as the response registers define them (R40).
-/

namespace Sys2Proof.Machine

/-! ## The fields of the response word -/

section
variable (st : BitVec 2) (rv : Limbs) (cv : Coeffs)

theorem responseWord_eq_above : responseWord st rv cv = cv.above (rv.above ((0 : BitVec 6) ++ st)) := rfl

/-- STATUS is the two lowest bits (R40). -/
theorem responseWord_status : (responseWord st rv cv).extractLsb' 0 2 = st := by
  rw [responseWord_eq_above, Nine.extractLsb'_above_low _ _ (by omega), Five.extractLsb'_above_low _ _ (by omega),
    BitVec.extractLsb'_append_eq_of_add_le (by omega), BitVec.extractLsb'_eq_self]

/-- The reserved bits read 0 (R40). -/
theorem responseWord_reserved : (responseWord st rv cv).extractLsb' 2 6 = 0 := by
  rw [responseWord_eq_above, Nine.extractLsb'_above_low _ _ (by omega), Five.extractLsb'_above_low _ _ (by omega),
    extractLsb'_append_high _ _ rfl]

/-- `Ri = RSP[8+64i+63 : 8+64i]` (R40). -/
theorem responseWord_limb (i : Fin 5) : (responseWord st rv cv).extractLsb' (8 + 64 * i.val) 64 = rv.get i := by
  rw [responseWord_eq_above, Nine.extractLsb'_above_low _ _ (by omega)]
  exact Five.extractLsb'_above_get rv _ i

/-- `Ck = RSP[328+128k+127 : 328+128k]` (R40). -/
theorem responseWord_coeff (k : Fin 9) : (responseWord st rv cv).extractLsb' (328 + 128 * k.val) 128 = cv.get k := by
  rw [responseWord_eq_above]
  exact Nine.extractLsb'_above_get cv _ k

end

/-! ## The bits of RSP -/

section
variable (s : State)

theorem State.responseBit_status {n : Nat} (h : n < 2) : s.responseBit n = s.status.map fun v => v.getLsbD n := by
  rw [State.responseBit, if_pos h]

theorem State.responseBit_reserved {n : Nat} (h2 : 2 ≤ n) (h8 : n < 8) : s.responseBit n = some false := by
  rw [State.responseBit, if_neg (by omega), if_pos h8]

theorem State.responseBit_limb (i : Fin 5) {j : Nat} (hj : j < 64) :
    s.responseBit (8 + 64 * i.val + j) = (s.r.get i).map fun v => v.getLsbD j := by
  have hi : (8 + 64 * i.val + j - 8) / 64 = i.val := by omega
  have hmod : (8 + 64 * i.val + j - 8) % 64 = j := by omega
  rw [State.responseBit, if_neg (by omega), if_neg (by omega), dif_pos (by omega)]
  simp only [hi, hmod]

theorem State.responseBit_coeff (k : Fin 9) {j : Nat} (hj : j < 128) :
    s.responseBit (328 + 128 * k.val + j) = (s.c.get k).map fun v => v.getLsbD j := by
  have hk : (328 + 128 * k.val + j - 328) / 128 = k.val := by omega
  have hmod : (328 + 128 * k.val + j - 328) % 128 = j := by omega
  rw [State.responseBit, if_neg (by omega), if_neg (by omega), dif_neg (by omega), dif_pos (by omega)]
  simp only [hk, hmod]

end

/-- The bits of RSP lie in R40's four kinds of field. -/
theorem responseField_cases {n : Nat} (hn : n < 1480) :
    n < 2 ∨ (2 ≤ n ∧ n < 8) ∨ (∃ (i : Fin 5) (j : Nat), j < 64 ∧ n = 8 + 64 * i.val + j) ∨
    ∃ (k : Fin 9) (j : Nat), j < 128 ∧ n = 328 + 128 * k.val + j := by
  by_cases hstatus : n < 2
  · exact .inl hstatus
  by_cases hreserved : n < 8
  · exact .inr (.inl ⟨by omega, hreserved⟩)
  by_cases hlimb : n < 328
  · exact .inr (.inr (.inl ⟨⟨(n - 8) / 64, by omega⟩, (n - 8) % 64, by omega, by dsimp only; omega⟩))
  · exact .inr (.inr (.inr ⟨⟨(n - 328) / 128, by omega⟩, (n - 328) % 128, by omega, by dsimp only; omega⟩))

/-! ## The registers that hold values -/

theorem allFive_map_some {α : Type} (x : Five α) : allFive (x.map some) = some x := rfl

theorem allNine_map_some {α : Type} (x : Nine α) : allNine (x.map some) = some x := rfl

theorem eq_map_some_of_allFive {α : Type} {x : Five (Option α)} {v : Five α} (h : allFive x = some v) :
    x = v.map some := by
  unfold allFive at h
  split at h
  · cases h; rfl
  · cases h

theorem eq_map_some_of_allNine {α : Type} {x : Nine (Option α)} {v : Nine α} (h : allNine x = some v) :
    x = v.map some := by
  unfold allNine at h
  split at h
  · cases h; rfl
  · cases h

/-- RSP is the word of the registers' values. -/
theorem State.response_of_values {s : State} {st : BitVec 2} {rv : Limbs} {cv : Coeffs} (hst : s.status = some st)
    (hr : s.r = rv.map some) (hc : s.c = cv.map some) : s.response = some (responseWord st rv cv) := by
  simp only [State.response, hst, hr, hc, allFive_map_some, allNine_map_some]

/-- RSP is there only where every response register holds a value. -/
theorem State.values_of_response {s : State} {w : BitVec 1480} (h : s.response = some w) :
    ∃ st rv cv, s.status = some st ∧ s.r = rv.map some ∧ s.c = cv.map some ∧ w = responseWord st rv cv := by
  unfold State.response at h
  split at h
  · next st rv cv hst hr hc =>
    cases h
    exact ⟨st, rv, cv, hst, eq_map_some_of_allFive hr, eq_map_some_of_allNine hc, rfl⟩
  · cases h

/-- Each bit of RSP is the one its field's register defines. -/
theorem State.responseBit_of_response {s : State} {w : BitVec 1480} (h : s.response = some w) {n : Nat}
    (hn : n < 1480) : s.responseBit n = some (w.getLsbD n) := by
  obtain ⟨st, rv, cv, hst, hr, hc, rfl⟩ := State.values_of_response h
  rcases responseField_cases hn with hs | ⟨h2, h8⟩ | ⟨i, j, hj, rfl⟩ | ⟨k, j, hj, rfl⟩
  · rw [s.responseBit_status hs, hst]
    simpa using (getLsbD_of_extractLsb' (responseWord_status st rv cv) hs).symm
  · obtain ⟨j, rfl⟩ := Nat.exists_eq_add_of_le h2
    rw [s.responseBit_reserved h2 h8, getLsbD_of_extractLsb' (responseWord_reserved st rv cv) (by omega)]
    simp
  · rw [s.responseBit_limb i hj, hr, Five.get_map, getLsbD_of_extractLsb' (responseWord_limb st rv cv i) hj]
    rfl
  · rw [s.responseBit_coeff k hj, hc, Nine.get_map, getLsbD_of_extractLsb' (responseWord_coeff st rv cv k) hj]
    rfl

/-- Settles O33: the fields of the word, the bits the registers define, and that the two agree. -/
theorem responseFieldsAtTheirBits : Obligations.ResponseFieldsAtTheirBits :=
  ⟨fun st rv cv => ⟨responseWord_status st rv cv, responseWord_reserved st rv cv, responseWord_limb st rv cv,
      responseWord_coeff st rv cv⟩,
    fun s => ⟨fun _ hj => s.responseBit_status hj, fun _ h2 h8 => s.responseBit_reserved h2 h8,
      fun i _ hj => s.responseBit_limb i hj, fun k _ hj => s.responseBit_coeff k hj⟩,
    fun _ _ _ _ hst hr hc => State.response_of_values hst hr hc,
    fun _ _ h _ hn => State.responseBit_of_response h hn⟩

end Sys2Proof.Machine
end

section
/-!
The host's `wait` and `expect` (R45, R97).
-/

namespace Sys2Proof.Machine

/-- At the host's move the step is what its directive asks for (R97). -/
theorem State.stepKind_of_host {s : State} {d : Directive} {rest : List Directive} (hs : s.script = d :: rest)
    (hb : s.blockMoves = false) : s.stepKind = directiveKind s d := by
  simp only [State.stepKind, hb, hs, Bool.false_eq_true, if_false]

/-- A READ whose field can be read (R95). -/
theorem step_of_read {s : State} {f : Field} {v : FieldValue} (hk : s.stepKind = .read f)
    (hv : s.readField f = some v) : step s = .next (s.note v).hostStep := by
  simp only [step, stepAs, hk, readStep, hv]

/-- A hold is the host's side of a step alone (R45, R90). -/
theorem step_of_hold {s : State} (hk : s.stepKind = .hold) : step s = .next s.hostStep := by
  simp only [step, stepAs, hk]

/-- A step of the host takes the first directive off its script once that is done (R97, R98). -/
theorem State.hostStep_script_cons {s : State} {d : Directive} {rest : List Directive} (hs : s.script = d :: rest) :
    s.hostStep.script = if directiveDone s d then rest else d :: rest := by
  rw [State.hostStep_script, State.advanceScript_cons hs]

/-- Settles O58: a `wait` is a hold, which is done when RSP_VALID = 1, and an `expect` is a READ, which the host notes. -/
theorem waitAndExpectDirectives : Obligations.WaitAndExpectDirectives := by
  refine ⟨fun s rest hs hb => ?_, fun s f v w rest hs hb hv => ?_⟩
  · have hk : s.stepKind = .hold := State.stepKind_of_host hs hb
    refine ⟨_, step_of_hold hk, ?_, by simp⟩
    rw [State.hostStep_script_cons hs, hs, directiveDone]
  · have hk : s.stepKind = .read f := State.stepKind_of_host hs hb
    have hnote : (s.note v).script = .expect f w :: rest := hs
    refine ⟨_, step_of_read hk hv, ?_, by simp [hs, expectOutcome]⟩
    rw [State.hostStep_script_cons hnote, directiveDone, if_pos rfl]

end Sys2Proof.Machine
end

section
/-!
The datapath primitives (R47–R52): the limb pre-adder and the product unit as sums and products, the accumulator as
arithmetic modulo 2^128.
-/

namespace Sys2Proof.Machine

/-! ## The accumulator's expressions -/

/-- The accumulator computes the image in ℤ/2^128 of the exact value: reduction is a ring homomorphism (R52). -/
theorem AccExpr.eval_eq_intCast_exact (e : AccExpr) : e.eval = (e.exact : Coeff) := by
  induction e with
  | leaf x => rw [AccExpr.eval, AccExpr.exact, Int.cast_natCast, BitVec.natCast_eq_ofNat, BitVec.ofNat_toNat,
      BitVec.setWidth_eq]
  | add e f ihe ihf => rw [AccExpr.eval, AccExpr.exact, accAdd_eq_add, ihe, ihf, Int.cast_add]
  | sub e f ihe ihf => rw [AccExpr.eval, AccExpr.exact, accSub_eq_sub, ihe, ihf, Int.cast_sub]
  | dbl e ih => rw [AccExpr.eval, AccExpr.exact, accDbl_eq_add, ih, two_mul, Int.cast_add]

/-- The bits of the result are the residue of the exact value (R52). -/
theorem AccExpr.toNat_eval (e : AccExpr) : (e.eval.toNat : Int) = e.exact % 2 ^ 128 := by
  rw [e.eval_eq_intCast_exact, BitVec.toNat_intCast, Int.toNat_of_nonneg (Int.emod_nonneg _ (by decide))]

/-- Settles O4: the result is the residue of the exact value, and a value in [0, 2^128) is its own residue. -/
theorem accumulatorExpressionIsExactModulo2Pow128 : Obligations.AccumulatorExpressionIsExactModulo2Pow128 := by
  refine fun e => ⟨e.toNat_eval, fun hnonneg hlt => ?_, fun f hexact => ?_⟩
  · rw [e.toNat_eval, Int.emod_eq_of_lt hnonneg hlt]
  · rw [e.eval_eq_intCast_exact, f.eval_eq_intCast_exact, hexact]

/-! ## The limb pre-adder -/

theorem lsum_toNat (xs : List Limb) : (lsum xs).toNat = (xs.map BitVec.toNat).sum % 2 ^ 64 := BitVec.toNat_ofNat _ _

theorem lsum_cons (x : Limb) (xs : List Limb) : lsum (x :: xs) = x + lsum xs := by
  rw [lsum, List.map_cons, List.sum_cons, BitVec.ofNat_add, BitVec.ofNat_toNat, BitVec.setWidth_eq, lsum]

/-- The pre-adder's sum of any number of limbs is the wrapping one (R47). -/
theorem lsum_eq_sum (xs : List Limb) : lsum xs = xs.sum := by
  induction xs with
  | nil => rfl
  | cons x xs ih => rw [lsum_cons, ih, List.sum_cons]

/-- Settles O1: the pre-adder is the wrapping sum, which no order of the limbs changes. -/
theorem limbPreAdderAddsModulo2Pow64 : Obligations.LimbPreAdderAddsModulo2Pow64 := by
  refine ⟨fun xs _ _ => ⟨lsum_toNat xs, lsum_eq_sum xs, fun ys hperm => ?_, fun hzero => ?_⟩, by decide, by decide⟩
  · rw [lsum_eq_sum, lsum_eq_sum, hperm.sum_eq]
  · rw [lsum_eq_sum, List.sum_eq_zero hzero]

/-! ## The product unit -/

/-- A product of two limbs fits in 128 bits, so that nothing is dropped (R48). -/
theorem prod_toNat (x y : Limb) : (prod x y).toNat = x.toNat * y.toNat := by
  have hlt : x.toNat * y.toNat < 2 ^ 64 * 2 ^ 64 := Nat.mul_lt_mul'' x.isLt y.isLt
  rw [prod, BitVec.toNat_ofNat, Nat.mod_eq_of_lt (by omega)]

theorem prod_comm (x y : Limb) : prod x y = prod y x := by
  rw [prod_eq_mul, prod_eq_mul, mul_comm]

theorem zero_prod (y : Limb) : prod 0 y = 0 := by
  rw [prod_eq_mul, show (0 : Limb).setWidth 128 = 0 from rfl, zero_mul]

theorem one_prod (y : Limb) : prod 1 y = y.setWidth 128 := by
  rw [prod_eq_mul, show (1 : Limb).setWidth 128 = 1 from rfl, one_mul]

/-- Settles O2, by the exactness of one product. -/
theorem productUnitIsExact : Obligations.ProductUnitIsExact :=
  ⟨fun x y => ⟨prod_toNat x y, prod_comm x y⟩, fun y => ⟨zero_prod y, one_prod y⟩, by decide, by decide⟩

/-! ## The accumulator's three operations -/

theorem accAdd_toNat (x y : Coeff) : (accAdd x y).toNat = (x.toNat + y.toNat) % 2 ^ 128 := BitVec.toNat_ofNat _ _

theorem accSub_toNat (x y : Coeff) : (accSub x y).toNat = (x.toNat + 2 ^ 128 - y.toNat) % 2 ^ 128 :=
  BitVec.toNat_ofNat _ _

theorem accDbl_toNat (x : Coeff) : (accDbl x).toNat = 2 * x.toNat % 2 ^ 128 := by
  rw [accDbl, accAdd_toNat, ← Nat.two_mul]

theorem accAdd_zero (x : Coeff) : accAdd x 0 = x := by
  rw [accAdd_eq_add, add_zero]

theorem accAdd_comm (x y : Coeff) : accAdd x y = accAdd y x := by
  rw [accAdd_eq_add, accAdd_eq_add, add_comm]

theorem accAdd_assoc (x y z : Coeff) : accAdd (accAdd x y) z = accAdd x (accAdd y z) := by
  simp only [accAdd_eq_add, add_assoc]

theorem accSub_self (x : Coeff) : accSub x x = 0 := by
  rw [accSub_eq_sub, sub_self]

/-- Settles O3: the three operations are those of ℤ/2^128, a commutative group under addition. -/
theorem accumulatorWrapsModulo2Pow128 : Obligations.AccumulatorWrapsModulo2Pow128 :=
  ⟨fun x y z => ⟨accAdd_toNat x y, accSub_toNat x y, accDbl_toNat x, rfl, accAdd_zero x, accAdd_comm x y,
      accAdd_assoc x y z, accSub_self x⟩,
    by decide, by decide, by decide, by decide, by decide, by decide⟩

end Sys2Proof.Machine
end

section
/-!
The schoolbook multiplier and `mul.sb` (R54–R58): the convolution as a double sum and as the full product, one
coefficient's accumulation as the residue of its exact sum, and what a command in bound delivers.
-/

namespace Sys2Proof.Machine

/-! ## The convolution -/

/-- Only the turns of a loop that give something count in a sum over what it gives. -/
theorem sum_map_filterMap {α β : Type} (g : α → Option β) (f : β → Nat) (xs : List α) :
    ((xs.filterMap g).map f).sum = (xs.map fun x => ((g x).map f).getD 0).sum := by
  induction xs with
  | nil => rfl
  | cons x xs ih => cases h : g x <;> simp [h, ih]

/-- Conv_k as R54 writes it: of the products with one i it has the one with j = k - i, if that is an index. -/
theorem conv_eq_sum (a b : Limbs) (k : Nat) :
    conv a b k = ∑ i : Fin 5, ∑ j : Fin 5, if i.val + j.val = k then (a.get i).toNat * (b.get j).toNat else 0 := by
  rw [conv, indexPairs, sum_map_filterMap, Fin.sum_univ_def]
  refine congrArg List.sum (List.map_congr_left (l := List.finRange 5) fun i _ => ?_)
  split
  case isTrue h =>
    rw [Fintype.sum_eq_single ⟨k - i, h.2⟩ fun j hj => if_neg fun hij => hj (Fin.ext (Nat.eq_sub_of_add_eq' hij)),
      if_pos (Nat.add_sub_cancel' h.1)]
    rfl
  case isFalse h => exact (Finset.sum_eq_zero fun j _ => if_neg fun hij => h (by omega)).symm

/-- The value of a limb vector as a sum over its limbs (R6). -/
theorem limbsValue_eq_sum (x : Limbs) : limbsValue x = ∑ i : Fin 5, (x.get i).toNat * 2 ^ (52 * i.val) := by
  simp [limbsValue, Fin.sum_univ_five, Five.get]

/-- A product a_i · b_j has its weight once among the nine. -/
theorem sum_weight_eq (x : Nat) (i j : Fin 5) :
    (∑ k : Fin 9, if i.val + j.val = k.val then x * 2 ^ (52 * k.val) else 0) = x * 2 ^ (52 * (i.val + j.val)) := by
  rw [Fintype.sum_eq_single ⟨i.val + j.val, by omega⟩, if_pos rfl]
  exact fun k hk => if_neg fun hij => hk (Fin.ext hij.symm)

/-- The nine coefficients, weighted, are the full product (R54): both sides are Σ a_i · b_j · 2^(52(i+j)). -/
theorem limbsValue_mul_eq_sum_conv (a b : Limbs) :
    limbsValue a * limbsValue b = ∑ k : Fin 9, conv a b k.val * 2 ^ (52 * k.val) := by
  symm
  calc ∑ k : Fin 9, conv a b k.val * 2 ^ (52 * k.val)
      = ∑ k : Fin 9, ∑ i : Fin 5, ∑ j : Fin 5,
          if i.val + j.val = k.val then (a.get i).toNat * (b.get j).toNat * 2 ^ (52 * k.val) else 0 := by
        simp only [conv_eq_sum, Finset.sum_mul, ite_mul, zero_mul]
    _ = ∑ i : Fin 5, ∑ j : Fin 5, ∑ k : Fin 9,
          if i.val + j.val = k.val then (a.get i).toNat * (b.get j).toNat * 2 ^ (52 * k.val) else 0 := by
        rw [Finset.sum_comm]
        exact Finset.sum_congr rfl fun i _ => Finset.sum_comm
    _ = ∑ i : Fin 5, ∑ j : Fin 5, (a.get i).toNat * (b.get j).toNat * 2 ^ (52 * (i.val + j.val)) := by
        simp only [sum_weight_eq]
    _ = limbsValue a * limbsValue b := by
        simp only [limbsValue_eq_sum, Finset.sum_mul_sum, mul_add, pow_add, mul_mul_mul_comm]

/-- Settles O5: by the double sum of one coefficient, and the exchange of sums for all nine. -/
theorem convolutionIsTheFullProduct : Obligations.ConvolutionIsTheFullProduct :=
  fun a b => ⟨fun k => conv_eq_sum a b k.val, limbsValue_mul_eq_sum_conv a b⟩

/-! ## The accumulation of one coefficient -/

/-- Accumulating products in the order of a list adds the residue of their exact sum (R52, R55). -/
theorem accumulate_eq_add_ofNat (a b : Limbs) (ps : List (Fin 5 × Fin 5)) (acc : Coeff) :
    ps.foldl (fun acc p => accAdd acc (prod (a.get p.1) (b.get p.2))) acc =
      acc + BitVec.ofNat 128 (ps.map fun p => (a.get p.1).toNat * (b.get p.2).toNat).sum := by
  induction ps generalizing acc with
  | nil => exact (BitVec.add_zero acc).symm
  | cons p ps ih =>
    rw [List.foldl_cons, ih, accAdd_eq_add, List.map_cons, List.sum_cons, BitVec.ofNat_add, ← add_assoc, prod]

theorem accumulate_eq_ofNat (a b : Limbs) (ps : List (Fin 5 × Fin 5)) :
    ps.foldl (fun acc p => accAdd acc (prod (a.get p.1) (b.get p.2))) 0 =
      BitVec.ofNat 128 (ps.map fun p => (a.get p.1).toNat * (b.get p.2).toNat).sum :=
  (accumulate_eq_add_ofNat a b ps 0).trans (BitVec.zero_add _)

/-- The coefficient is the residue of Conv_k modulo 2^128 (R56). -/
theorem get_sbCoeffs (a b : Limbs) (k : Fin 9) : (sbCoeffs a b).get k = BitVec.ofNat 128 (conv a b k.val) := by
  rw [sbCoeffs, Nine.get_tabulate, sbCoeff, accumulate_eq_ofNat, conv]

theorem toNat_get_sbCoeffs (a b : Limbs) (k : Fin 9) : ((sbCoeffs a b).get k).toNat = conv a b k.val % 2 ^ 128 := by
  rw [get_sbCoeffs, BitVec.toNat_ofNat]

/-- In bound every Conv_k fits the accumulator (R81 (c)). -/
theorem conv_lt_of_inBound {a b : Limbs} (h : inBound a b = true) (k : Fin 9) : conv a b k.val < 2 ^ 128 := by
  have hc : boundC a b = true := (Bool.and_eq_true_iff.mp h).2
  have hconv := (Bool.and_eq_true_iff.mp hc).1
  exact of_decide_eq_true (List.all_eq_true.mp hconv k.val (List.mem_range.mpr k.isLt))

/-- Settles O6: a residue below the modulus is the number itself, and in bound Conv_k is below it. -/
theorem schoolbookCoefficientsAreConvolution : Obligations.SchoolbookCoefficientsAreConvolution := by
  intro a b k
  have hexact : conv a b k.val < 2 ^ 128 → ((sbCoeffs a b).get k).toNat = conv a b k.val := fun hlt => by
    rw [toNat_get_sbCoeffs, Nat.mod_eq_of_lt hlt]
  exact ⟨toNat_get_sbCoeffs a b k, hexact, fun hb => hexact (conv_lt_of_inBound hb k)⟩

/-- Settles O7: the exact sum of the products does not depend on their order, and the coefficient is its residue. -/
theorem schoolbookAdditionOrderIsFree : Obligations.SchoolbookAdditionOrderIsFree := by
  refine ⟨fun a b k ps hperm => ?_, by decide, by decide⟩
  rw [accumulate_eq_ofNat, (hperm.map _).sum_eq, get_sbCoeffs, conv]

/-! ## The commands -/

theorem exec_mulSb (a b : Limbs) (s : State) :
    exec (.mulSb a b) s = .next (s.deliver (.mulSb a b) (sbCoeffs a b)) := rfl

theorem exec_mulKa (a b : Limbs) (s : State) :
    exec (.mulKa a b) s = .next (s.deliver (.mulKa a b) (kaCoeffs a b)) := rfl

/-- Settles O18: `mul.sb` delivers SB_C, in the two cases of a delivery. -/
theorem mulSbCompletes : Obligations.MulSbCompletes := by
  refine fun a b s => ⟨fun h => ?_, fun hb ho => ?_⟩
  · rw [exec_mulSb, State.deliver_of_computed (i := .mulSb a b) _ h]; rfl
  · rw [exec_mulSb, State.deliver_of_free (i := .mulSb a b) _ hb ho]; rfl

/-- On operands in bound on which the multipliers agree, both commands deliver SB_C and its fold, in every state. -/
theorem exec_of_multipliers_agree {a b : Limbs} (hb : inBound a b = true) (hagree : kaCoeffs a b = sbCoeffs a b)
    {i : Instr} (hi : i = .mulSb a b ∨ i = .mulKa a b) (s : State) :
    ∃ t, exec i s = .next t ∧ t.r = (fold (sbCoeffs a b).low).ro.map some ∧ t.c = (sbCoeffs a b).map some := by
  have he : exec i s =
      .next (s.finish statusOk ((fold (sbCoeffs a b).low).ro.map some) ((sbCoeffs a b).map some)) := by
    rcases hi with rfl | rfl
    · rw [exec_mulSb, State.deliver_of_computed (i := .mulSb a b) _ (.inl hb)]
    · rw [exec_mulKa, hagree, State.deliver_of_computed (i := .mulKa a b) _ (.inl hb)]
  exact ⟨_, he, State.finish_r .., State.finish_c ..⟩

/-- Settles O25: the operands are in bound, and the multipliers and the fold are evaluated on them. -/
theorem commandCornerCases : Obligations.CommandCornerCases := by
  refine fun s => ⟨fun i hi => ?_, fun i hi => ?_, fun i hi => ?_⟩
  · obtain ⟨t, he, hr, hc⟩ := exec_of_multipliers_agree (by decide) (by decide) hi s
    exact ⟨t, he, hr.trans (by decide), hc.trans (by decide)⟩
  · obtain ⟨t, he, hr, hc⟩ := exec_of_multipliers_agree (by decide) (by decide) hi s
    exact ⟨t, he, hr.trans (by decide), hc.trans (by decide)⟩
  · obtain ⟨t, he, hr, -⟩ := exec_of_multipliers_agree (by decide) (by decide) hi s
    exact ⟨t, he, hr.trans (by decide)⟩

/-- Settles O26: the worked example's operands are in bound, and the multipliers and the fold are evaluated on them. -/
theorem concreteScenario : Obligations.ConcreteScenario := by
  intro s i hi
  obtain ⟨t, he, hr, hc⟩ := exec_of_multipliers_agree (by decide) (by decide) hi s
  exact ⟨t, he, hr.trans (by decide), hc ▸ by decide⟩

end Sys2Proof.Machine
end

section
/-!
The carry-propagation unit (R61–R66): the carry chain one limb at a time, what it keeps of the weighted sum, and, with
the Karatsuba formulas as identities of the ring ℤ/2^128, what both commands deliver in bound.
-/

namespace Sys2Proof.Machine

/-! ## One limb of the chain -/

/-- A limb below 2^52 has its reserved bits 0 (R61, R63). -/
theorem extractLsb'_eq_zero_of_canonical {x : Limb} (h : x.toNat < 2 ^ 52) : x.extractLsb' 52 12 = 0 := by
  apply BitVec.eq_of_toNat_eq
  rw [BitVec.extractLsb'_toNat, Nat.shiftRight_eq_div_pow, Nat.div_eq_of_lt h]
  rfl

theorem low52_lt (t : Coeff) : (low52 t).toNat < 2 ^ 52 := by
  rw [low52_toNat]
  exact Nat.mod_lt _ (by decide)

theorem shr52_le (t : Coeff) : (shr52 t).toNat ≤ 2 ^ 76 - 1 := by
  have ht := t.isLt
  rw [shr52_toNat]
  omega

/-- The two extractions split a carried sum without loss (R61). -/
theorem low52_add_shr52 (t : Coeff) : (low52 t).toNat + (shr52 t).toNat * 2 ^ 52 = t.toNat := by
  rw [low52_toNat, shr52_toNat]
  exact Nat.mod_add_div' _ _

theorem fold_ro_get (ci : Five Coeff) (k : Fin 5) : (fold ci).ro.get k = low52 ((fold ci).t.get k) :=
  Five.get_map ..

theorem fold_k_get (ci : Five Coeff) (k : Fin 5) : (fold ci).k.get k = shr52 ((fold ci).t.get k) :=
  Five.get_map ..

/-- Settles O8: the chain is R62's by definition, its extractions are remainder and quotient, and the corner cases and
the example are evaluated. -/
theorem foldFollowsTheCarryChain : Obligations.FoldFollowsTheCarryChain := by
  refine ⟨fun t => ⟨low52_toNat t, extractLsb'_eq_zero_of_canonical (low52_lt t), shr52_toNat t, shr52_le t⟩,
    fun ci => ⟨rfl, accAdd_toNat .., accAdd_toNat .., accAdd_toNat .., accAdd_toNat .., fun k => ⟨?_, ?_⟩⟩,
    by decide, by decide, by decide, by decide, by decide, by decide, by decide, by decide, by decide, by decide,
    by decide⟩
  · rw [fold_ro_get, low52_toNat]
  · rw [fold_k_get, shr52_toNat]

/-- Settles O9: an output limb is below 2^52, and so its upper bits are 0. -/
theorem foldOutputsAreCanonical : Obligations.FoldOutputsAreCanonical :=
  fun ci k => ⟨fold_ro_get_lt ci k, extractLsb'_eq_zero_of_canonical (fold_ro_get_lt ci k)⟩

/-! ## The value the fold keeps -/

/-- Each output limb and its carry make up the carried sum. -/
theorem fold_ro_add_k (ci : Five Coeff) (k : Fin 5) :
    ((fold ci).ro.get k).toNat + ((fold ci).k.get k).toNat * 2 ^ 52 = ((fold ci).t.get k).toNat := by
  rw [fold_ro_get, fold_k_get, low52_add_shr52]

theorem accAdd_toNat_of_lt {x y : Coeff} (h : x.toNat + y.toNat < 2 ^ 128) :
    (accAdd x y).toNat = x.toNat + y.toNat := by
  rw [accAdd_toNat, Nat.mod_eq_of_lt h]

/-- Five canonical limbs have a 260-bit value. -/
theorem limbsValue_lt_of_canonical {x : Limbs} (h : ∀ k, (x.get k).toNat < 2 ^ 52) : limbsValue x < 2 ^ 260 := by
  have h0 : x.l0.toNat < 2 ^ 52 := h 0
  have h1 : x.l1.toNat < 2 ^ 52 := h 1
  have h2 : x.l2.toNat < 2 ^ 52 := h 2
  have h3 : x.l3.toNat < 2 ^ 52 := h 3
  have h4 : x.l4.toNat < 2 ^ 52 := h 4
  unfold limbsValue
  omega

/-- No carried sum of the fold wraps (the hypothesis of R66). -/
def FoldExact (ci : Five Coeff) : Prop :=
  ci.l1.toNat + (fold ci).k.l0.toNat < 2 ^ 128 ∧ ci.l2.toNat + (fold ci).k.l1.toNat < 2 ^ 128 ∧
  ci.l3.toNat + (fold ci).k.l2.toNat < 2 ^ 128 ∧ ci.l4.toNat + (fold ci).k.l3.toNat < 2 ^ 128

/-- The weighted sum of five coefficients, written out. -/
theorem sum_weights (ci : Five Coeff) :
    ∑ k : Fin 5, (ci.get k).toNat * 2 ^ (52 * k.val) = ci.l0.toNat + ci.l1.toNat * 2 ^ 52 + ci.l2.toNat * 2 ^ 104 +
      ci.l3.toNat * 2 ^ 156 + ci.l4.toNat * 2 ^ 208 := by
  simp [Fin.sum_univ_five, Five.get]

/-- The carries cancel from limb to limb, and only the last is left over (R64). -/
theorem FoldExact.limbsValue_add_carry {ci : Five Coeff} (h : FoldExact ci) :
    limbsValue (fold ci).ro + (fold ci).k.l4.toNat * 2 ^ 260 = ∑ k : Fin 5, (ci.get k).toNat * 2 ^ (52 * k.val) := by
  obtain ⟨h1, h2, h3, h4⟩ := h
  have s0 : (fold ci).ro.l0.toNat + (fold ci).k.l0.toNat * 2 ^ 52 = ci.l0.toNat := fold_ro_add_k ci 0
  have s1 : (fold ci).ro.l1.toNat + (fold ci).k.l1.toNat * 2 ^ 52 = ci.l1.toNat + (fold ci).k.l0.toNat :=
    (fold_ro_add_k ci 1).trans (accAdd_toNat_of_lt h1)
  have s2 : (fold ci).ro.l2.toNat + (fold ci).k.l2.toNat * 2 ^ 52 = ci.l2.toNat + (fold ci).k.l1.toNat :=
    (fold_ro_add_k ci 2).trans (accAdd_toNat_of_lt h2)
  have s3 : (fold ci).ro.l3.toNat + (fold ci).k.l3.toNat * 2 ^ 52 = ci.l3.toNat + (fold ci).k.l2.toNat :=
    (fold_ro_add_k ci 3).trans (accAdd_toNat_of_lt h3)
  have s4 : (fold ci).ro.l4.toNat + (fold ci).k.l4.toNat * 2 ^ 52 = ci.l4.toNat + (fold ci).k.l3.toNat :=
    (fold_ro_add_k ci 4).trans (accAdd_toNat_of_lt h4)
  rw [sum_weights, limbsValue]
  omega

/-- The output limbs are the weighted sum modulo 2^260: they differ by a multiple of it and are canonical (R66). -/
theorem FoldExact.limbsValue_eq_mod {ci : Five Coeff} (h : FoldExact ci) :
    limbsValue (fold ci).ro = (∑ k : Fin 5, (ci.get k).toNat * 2 ^ (52 * k.val)) % 2 ^ 260 := by
  rw [← h.limbsValue_add_carry, Nat.add_mul_mod_self_right,
    Nat.mod_eq_of_lt (limbsValue_lt_of_canonical (fold_ro_get_lt ci))]

/-- Settles O10, by the cancellation of the carries. -/
theorem foldKeepsTheValueModulo2Pow260 : Obligations.FoldKeepsTheValueModulo2Pow260 := fun ci h1 h2 h3 h4 =>
  have h : FoldExact ci := ⟨h1, h2, h3, h4⟩
  ⟨h.limbsValue_eq_mod, h.limbsValue_add_carry⟩

/-! ## The multipliers agree under condition (a) -/

theorem boundA_of_inBound {a b : Limbs} (h : inBound a b = true) : boundA a b = true :=
  (Bool.and_eq_true_iff.mp (Bool.and_eq_true_iff.mp h).1).1

/-- Under condition (a) no group sum of an operand reaches 2^64 (R81). -/
theorem exactGroupSum_lt_of_boundA {a b : Limbs} (h : boundA a b = true) {g : List (Fin 5)} (hg : g ∈ groups) :
    exactGroupSum a g < 2 ^ 64 ∧ exactGroupSum b g < 2 ^ 64 := by
  have hboth := Bool.and_eq_true_iff.mp (List.all_eq_true.mp h g hg)
  exact ⟨of_decide_eq_true hboth.1, of_decide_eq_true hboth.2⟩

/-- An operand's limbs as values of the accumulator's width, where the formulas of R69–R80 are identities of a ring. -/
def wide (x : Limbs) : Five Coeff := x.map (BitVec.setWidth 128)

/-- In ℤ/2^128 the sum of a group's limbs is the image of the exact sum. -/
theorem sum_wide (x : Limbs) (g : List (Fin 5)) : (g.map (wide x).get).sum = BitVec.ofNat 128 (exactGroupSum x g) := by
  induction g with
  | nil => rfl
  | cons i g ih =>
    rw [List.map_cons, List.sum_cons, ih, wide, Five.get_map, ← BitVec.ofNat_toNat, ← BitVec.ofNat_add]
    rfl

/-- A group sum that does not wrap is, widened, the sum of the widened limbs. -/
theorem setWidth_lsum_of_lt {x : Limbs} {g : List (Fin 5)} (h : exactGroupSum x g < 2 ^ 64) :
    (lsum (g.map x.get)).setWidth 128 = (g.map (wide x).get).sum := by
  rw [sum_wide, lsum, List.map_map]
  exact BitVec.setWidth_ofNat_of_le_of_lt (by decide) h

/-- The source formula of a product of two group sums (R69), in ℤ/2^128. -/
def groupProduct (x y : Five Coeff) (g : List (Fin 5)) : Coeff := (g.map x.get).sum * (g.map y.get).sum

/-- Under condition (a) the datapath's product of two group sums is the one of its source formula (R69). -/
theorem prod_lsum_of_boundA {a b : Limbs} (h : boundA a b = true) {g : List (Fin 5)} (hg : g ∈ groups) :
    prod (lsum (g.map a.get)) (lsum (g.map b.get)) = groupProduct (wide a) (wide b) g := by
  obtain ⟨ha, hb⟩ := exactGroupSum_lt_of_boundA h hg
  rw [prod_eq_mul, setWidth_lsum_of_lt ha, setWidth_lsum_of_lt hb, groupProduct]

/-- The source formulas of the fourteen products (R69), in ℤ/2^128. -/
def sourceProducts (x y : Five Coeff) : Products where
  p1 := x.l0 * y.l0
  p2 := groupProduct x y [0, 1]
  p3 := x.l1 * y.l1
  p4 := groupProduct x y [0, 2]
  p5 := groupProduct x y [0, 1, 2, 3]
  p6 := groupProduct x y [1, 3]
  p7 := groupProduct x y [0, 2, 4]
  p8 := x.l4 * y.l4
  p9 := groupProduct x y [1, 3, 4]
  p10 := x.l2 * y.l2
  p11 := groupProduct x y [2, 3]
  p12 := x.l3 * y.l3
  p13 := groupProduct x y [2, 4]
  p14 := groupProduct x y [3, 4]

/-- Under condition (a) the fourteen products are those of their source formulas (R69). -/
theorem kaProducts_of_boundA {a b : Limbs} (h : boundA a b = true) :
    kaProducts a b = sourceProducts (wide a) (wide b) := by
  have hg (g : List (Fin 5)) (hmem : g ∈ groups) := prod_lsum_of_boundA h hmem
  exact (Products.mk.injEq ..).mpr ⟨prod_eq_mul .., hg [0, 1] (by decide), prod_eq_mul .., hg [0, 2] (by decide),
    hg [0, 1, 2, 3] (by decide), hg [1, 3] (by decide), hg [0, 2, 4] (by decide), prod_eq_mul ..,
    hg [1, 3, 4] (by decide), prod_eq_mul .., hg [2, 3] (by decide), prod_eq_mul .., hg [2, 4] (by decide),
    hg [3, 4] (by decide)⟩

/-- The convolution in ℤ/2^128, coefficient by coefficient (R54). -/
def sourceCoeffs (x y : Five Coeff) : Coeffs where
  c0 := x.l0 * y.l0
  c1 := x.l0 * y.l1 + x.l1 * y.l0
  c2 := x.l0 * y.l2 + x.l1 * y.l1 + x.l2 * y.l0
  c3 := x.l0 * y.l3 + x.l1 * y.l2 + x.l2 * y.l1 + x.l3 * y.l0
  c4 := x.l0 * y.l4 + x.l1 * y.l3 + x.l2 * y.l2 + x.l3 * y.l1 + x.l4 * y.l0
  c5 := x.l1 * y.l4 + x.l2 * y.l3 + x.l3 * y.l2 + x.l4 * y.l1
  c6 := x.l2 * y.l4 + x.l3 * y.l3 + x.l4 * y.l2
  c7 := x.l3 * y.l4 + x.l4 * y.l3
  c8 := x.l4 * y.l4

/-- The reconstruction is the convolution, by polynomial identity (R72–R80). -/
theorem coeffs_sourceProducts (x y : Five Coeff) : (sourceProducts x y).coeffs = sourceCoeffs x y := by
  simp only [Products.coeffs, Products.s1, Products.s3, sourceProducts, groupProduct, List.map, List.sum_cons,
    List.sum_nil, Five.get, accAdd_eq_add, accSub_eq_sub, accDbl_eq_add]
  exact (Nine.mk.injEq ..).mpr ⟨rfl, by ring, by ring, by ring, by ring, by ring, by ring, by ring, rfl⟩

/-- The schoolbook accumulation is the convolution in ℤ/2^128 (R55, R56). -/
theorem sbCoeffs_eq_sourceCoeffs (a b : Limbs) : sbCoeffs a b = sourceCoeffs (wide a) (wide b) := by
  simp [sbCoeffs, Nine.tabulate, sbCoeff, indexPairs_table, accAdd_eq_add, prod_eq_mul, sourceCoeffs, wide, Five.map,
    Five.tabulate, Five.get]

/-- Under condition (a) the two multipliers compute the same coefficients (R82, R84). -/
theorem kaCoeffs_eq_sbCoeffs {a b : Limbs} (h : boundA a b = true) : kaCoeffs a b = sbCoeffs a b := by
  rw [kaCoeffs, kaProducts_of_boundA h, coeffs_sourceProducts, sbCoeffs_eq_sourceCoeffs]

/-! ## The fold in bound -/

/-- In bound every carried sum, taken exactly, fits the accumulator (R81 (c)). -/
theorem exactCarried_lt_of_inBound {a b : Limbs} (h : inBound a b = true) (k : Fin 5) :
    exactCarried a b k.val < 2 ^ 128 := by
  have hc : boundC a b = true := (Bool.and_eq_true_iff.mp h).2
  have hcarried := (Bool.and_eq_true_iff.mp hc).2
  exact of_decide_eq_true (List.all_eq_true.mp hcarried k.val (List.mem_range.mpr k.isLt))

theorem toNat_get_sbCoeffs_of_inBound {a b : Limbs} (h : inBound a b = true) (k : Fin 9) :
    ((sbCoeffs a b).get k).toNat = conv a b k.val := by
  rw [toNat_get_sbCoeffs, Nat.mod_eq_of_lt (conv_lt_of_inBound h k)]

/-- One link of the chain: an exact carried sum hands on an exact carry. -/
theorem add_carry_eq_exactCarried {a b : Limbs} {k : Nat} {c t : Coeff} (hc : c.toNat = conv a b (k + 1))
    (ht : t.toNat = exactCarried a b k) : c.toNat + (shr52 t).toNat = exactCarried a b (k + 1) := by
  rw [shr52_toNat, hc, ht, exactCarried]

/-- So does the accumulator, if the exact sum fits it (R65). -/
theorem accAdd_carry_eq_exactCarried {a b : Limbs} {k : Nat} {c t : Coeff} (hc : c.toNat = conv a b (k + 1))
    (ht : t.toNat = exactCarried a b k) (hlt : exactCarried a b (k + 1) < 2 ^ 128) :
    (accAdd c (shr52 t)).toNat = exactCarried a b (k + 1) := by
  have hsum := add_carry_eq_exactCarried hc ht
  rw [accAdd_toNat_of_lt (by omega), hsum]

/-- In bound every carried sum is the exact one (R65): along the chain. -/
theorem fold_t_eq_exactCarried {a b : Limbs} (h : inBound a b = true) (k : Fin 5) :
    ((fold (sbCoeffs a b).low).t.get k).toNat = exactCarried a b k.val := by
  revert k
  have hlt := exactCarried_lt_of_inBound h
  have hc := toNat_get_sbCoeffs_of_inBound h
  have h0 : (fold (sbCoeffs a b).low).t.l0.toNat = exactCarried a b 0 := hc 0
  have h1 : (fold (sbCoeffs a b).low).t.l1.toNat = exactCarried a b 1 := accAdd_carry_eq_exactCarried (hc 1) h0 (hlt 1)
  have h2 : (fold (sbCoeffs a b).low).t.l2.toNat = exactCarried a b 2 := accAdd_carry_eq_exactCarried (hc 2) h1 (hlt 2)
  have h3 : (fold (sbCoeffs a b).low).t.l3.toNat = exactCarried a b 3 := accAdd_carry_eq_exactCarried (hc 3) h2 (hlt 3)
  have h4 : (fold (sbCoeffs a b).low).t.l4.toNat = exactCarried a b 4 := accAdd_carry_eq_exactCarried (hc 4) h3 (hlt 4)
  exact Five.forall_iff.mpr ⟨h0, h1, h2, h3, h4⟩

/-- In bound no carried sum wraps (R65). -/
theorem foldExact_of_inBound {a b : Limbs} (h : inBound a b = true) : FoldExact (sbCoeffs a b).low := by
  have hlt := exactCarried_lt_of_inBound h
  have hc := toNat_get_sbCoeffs_of_inBound h
  have ht := fold_t_eq_exactCarried h
  exact ⟨(add_carry_eq_exactCarried (hc 1) (ht 0)).trans_lt (hlt 1),
    (add_carry_eq_exactCarried (hc 2) (ht 1)).trans_lt (hlt 2),
    (add_carry_eq_exactCarried (hc 3) (ht 2)).trans_lt (hlt 3),
    (add_carry_eq_exactCarried (hc 4) (ht 3)).trans_lt (hlt 4)⟩

/-- Settles O11: in bound the multipliers agree, and on their coefficients the chain is the exact one. -/
theorem foldDoesNotWrapInBound : Obligations.FoldDoesNotWrapInBound := by
  intro a b hb cv hcv
  obtain rfl : cv = sbCoeffs a b := hcv.elim id fun hka => hka.trans (kaCoeffs_eq_sbCoeffs (boundA_of_inBound hb))
  obtain ⟨h1, h2, h3, h4⟩ := foldExact_of_inBound hb
  exact ⟨h1, h2, h3, h4, accAdd_toNat_of_lt h1, accAdd_toNat_of_lt h2, accAdd_toNat_of_lt h3, accAdd_toNat_of_lt h4,
    fold_t_eq_exactCarried hb⟩

/-! ## The product modulo 2^260 -/

/-- The low five coefficients are the first five of the nine (R57). -/
theorem get_low {α : Type} (x : Nine α) (k : Fin 5) : x.low.get k = x.get (k.castAdd 4) := by
  revert k
  exact Five.forall_iff.mpr ⟨rfl, rfl, rfl, rfl, rfl⟩

/-- The four high coefficients weigh a multiple of 2^260. -/
theorem dvd_weight_natAdd (k : Fin 4) : 2 ^ 260 ∣ 2 ^ (52 * (Fin.natAdd 5 k).val) :=
  pow_dvd_pow 2 (show 260 ≤ 52 * (5 + k.val) by omega)

/-- Of nine terms the last four do not count modulo a number that divides them. -/
theorem sum_nine_mod {m : Nat} {f : Fin 9 → Nat} (h : ∀ k : Fin 4, m ∣ f (k.natAdd 5)) :
    (∑ k, f k) % m = (∑ k : Fin 5, f (k.castAdd 4)) % m := by
  have hhigh : (∑ k : Fin 4, f (k.natAdd 5)) % m = 0 := Nat.mod_eq_zero_of_dvd (Finset.dvd_sum fun k _ => h k)
  rw [Fin.sum_univ_add (a := 5) (b := 4), Nat.add_mod, hhigh, add_zero, Nat.mod_mod]

/-- Modulo 2^260 the product is the weighted sum of its five low coefficients (R57). -/
theorem limbsValue_mul_mod (a b : Limbs) :
    limbsValue a * limbsValue b % 2 ^ 260 = (∑ k : Fin 5, conv a b k.val * 2 ^ (52 * k.val)) % 2 ^ 260 :=
  (congrArg (· % 2 ^ 260) (limbsValue_mul_eq_sum_conv a b)).trans
    (sum_nine_mod fun k => (dvd_weight_natAdd k).mul_left _)

/-- In bound the fold's limbs are the product modulo 2^260 (R66). -/
theorem limbsValue_fold_of_inBound {a b : Limbs} (h : inBound a b = true) :
    limbsValue (fold (sbCoeffs a b).low).ro = limbsValue a * limbsValue b % 2 ^ 260 := by
  have hc (k : Fin 5) : ((sbCoeffs a b).low.get k).toNat = conv a b k.val := by
    rw [get_low, toNat_get_sbCoeffs_of_inBound h, Fin.val_castAdd]
  rw [(foldExact_of_inBound h).limbsValue_eq_mod, limbsValue_mul_mod]
  simp only [hc]

/-- Settles O21: in bound both commands deliver the fold of the schoolbook coefficients. -/
theorem productModulo2Pow260 : Obligations.ProductModulo2Pow260 := by
  intro a b i s hi hb
  obtain ⟨t, he, hr, -⟩ := exec_of_multipliers_agree hb (kaCoeffs_eq_sbCoeffs (boundA_of_inBound hb)) hi s
  exact ⟨t, _, he, hr, limbsValue_fold_of_inBound hb, fold_ro_get_lt _⟩

end Sys2Proof.Machine
end

section
/-!
The Karatsuba multiplier and the bound (R68–R82, R85): its group sums and products, its coefficients in bound, and what
InBound asks of the operands.
-/

namespace Sys2Proof.Machine

/-! ## InBound and its conditions -/

/-- Condition (a) of R81, group by group. -/
theorem boundA_iff (a b : Limbs) :
    boundA a b = true ↔ ∀ g ∈ groups, exactGroupSum a g < 2 ^ 64 ∧ exactGroupSum b g < 2 ^ 64 := by
  simp only [boundA, List.all_eq_true, Bool.and_eq_true, decide_eq_true_eq]

/-- Condition (c) of R81, coefficient by coefficient. -/
theorem boundC_iff (a b : Limbs) :
    boundC a b = true ↔ (∀ k, k ≤ 8 → conv a b k < 2 ^ 128) ∧ (∀ k, k ≤ 4 → exactCarried a b k < 2 ^ 128) := by
  simp only [boundC, Bool.and_eq_true, List.all_eq_true, List.mem_range, decide_eq_true_eq, Nat.lt_succ_iff]

/-- Condition (b) of R81 follows from (a): the product of two sums below 2^64 is below 2^128. -/
theorem boundB_of_boundA {a b : Limbs} (h : boundA a b = true) : boundB a b = true := by
  have hsum : ∀ x ∈ groups.map (exactGroupSum a) ++ groups.map (exactGroupSum b), x < 2 ^ 64 := by
    intro x hx
    rcases List.mem_append.mp hx with hx | hx <;> obtain ⟨g, hg, rfl⟩ := List.mem_map.mp hx
    · exact (exactGroupSum_lt_of_boundA h hg).1
    · exact (exactGroupSum_lt_of_boundA h hg).2
  simp only [boundB, List.all_eq_true, decide_eq_true_eq]
  intro x hx y hy
  calc x * y < 2 ^ 64 * 2 ^ 64 := Nat.mul_lt_mul'' (hsum x hx) (hsum y hy)
    _ = 2 ^ 128 := (pow_add 2 64 64).symm

/-- InBound is (a) and (c) (R81). -/
theorem inBound_iff (a b : Limbs) : inBound a b = true ↔ boundA a b = true ∧ boundC a b = true := by
  rw [inBound, Bool.and_eq_true, Bool.and_eq_true]
  exact ⟨fun ⟨⟨ha, _⟩, hc⟩ => ⟨ha, hc⟩, fun ⟨ha, hc⟩ => ⟨⟨ha, boundB_of_boundA ha⟩, hc⟩⟩

/-- Settles O16: (b) follows from (a), and the E_k are R81's by definition. -/
theorem inBoundIsItsConditions : Obligations.InBoundIsItsConditions := by
  refine fun a b => ⟨?_, boundB_of_boundA, rfl, fun _ => rfl⟩
  rw [inBound_iff, boundA_iff, boundC_iff]

/-! ## Limbs below 2^62 -/

/-- A sum of at most n terms, each at most m. -/
theorem sum_map_le_mul {α : Type} {f : α → Nat} {xs : List α} {n m : Nat} (hlen : xs.length ≤ n)
    (hf : ∀ x ∈ xs, f x ≤ m) : (xs.map f).sum ≤ n * m :=
  calc (xs.map f).sum ≤ (xs.map f).length • m := List.sum_le_card_nsmul _ _ (List.forall_mem_map.mpr hf)
    _ = xs.length * m := by rw [List.length_map, smul_eq_mul]
    _ ≤ n * m := Nat.mul_le_mul_right m hlen

/-- A group has at most four limbs, so that its sum stays below four times 2^62. -/
theorem exactGroupSum_lt_of_limbs {x : Limbs} (h : ∀ i, (x.get i).toNat < 2 ^ 62) {g : List (Fin 5)} (hg : g ∈ groups) :
    exactGroupSum x g < 2 ^ 64 := by
  have hlen : ∀ g ∈ groups, g.length ≤ 4 := by decide
  have hsum : exactGroupSum x g ≤ 4 * (2 ^ 62 - 1) := sum_map_le_mul (hlen g hg) fun i _ => Nat.le_pred_of_lt (h i)
  omega

/-- A coefficient has at most five products (R55). -/
theorem length_indexPairs_le (k : Nat) : (indexPairs k).length ≤ 5 := List.length_filterMap_le _ _

theorem conv_le_of_limbs {a b : Limbs} (ha : ∀ i, (a.get i).toNat < 2 ^ 62) (hb : ∀ i, (b.get i).toNat < 2 ^ 62)
    (k : Nat) : conv a b k ≤ 5 * (2 ^ 62 * 2 ^ 62) :=
  sum_map_le_mul (length_indexPairs_le k) fun p _ => Nat.mul_le_mul (ha p.1).le (hb p.2).le

/-- A carry adds less than 2^124 to a coefficient: by induction along the chain. -/
theorem exactCarried_lt_of_limbs {a b : Limbs} (ha : ∀ i, (a.get i).toNat < 2 ^ 62)
    (hb : ∀ i, (b.get i).toNat < 2 ^ 62) (k : Nat) : exactCarried a b k < 6 * 2 ^ 124 := by
  induction k with
  | zero =>
    have hconv := conv_le_of_limbs ha hb 0
    rw [exactCarried]
    omega
  | succ k ih =>
    have hconv := conv_le_of_limbs ha hb (k + 1)
    rw [exactCarried]
    omega

/-- Settles O17: the group sums stay below 4 · 2^62, the coefficients and carried sums below 6 · 2^124. -/
theorem sixtyTwoBitLimbsAreInBound : Obligations.SixtyTwoBitLimbsAreInBound := by
  intro a b h
  have ha (i : Fin 5) : (a.get i).toNat < 2 ^ 62 := (h i).1
  have hb (i : Fin 5) : (b.get i).toNat < 2 ^ 62 := (h i).2
  rw [inBound_iff, boundA_iff, boundC_iff]
  refine ⟨fun g hg => ⟨exactGroupSum_lt_of_limbs ha hg, exactGroupSum_lt_of_limbs hb hg⟩, fun k _ => ?_, fun k _ => ?_⟩
  · have hconv := conv_le_of_limbs ha hb k
    omega
  · have hcarried := exactCarried_lt_of_limbs ha hb k
    omega

/-! ## The group sums and the products -/

/-- A group sum that does not wrap is the exact one. -/
theorem toNat_lsum_of_lt {x : Limbs} {g : List (Fin 5)} (h : exactGroupSum x g < 2 ^ 64) :
    (lsum (g.map x.get)).toNat = exactGroupSum x g := by
  rw [lsum_toNat, List.map_map]
  exact Nat.mod_eq_of_lt h

/-- A property of every group's sum, group by group (R68). -/
theorem groupSums_iff (x : Limbs) (p : List (Fin 5) → Limb → Prop) :
    (∀ g ∈ groups, p g (lsum (g.map x.get))) ↔
      p [0, 1] (groupSums x).g2 ∧ p [0, 2] (groupSums x).g4 ∧ p [0, 1, 2, 3] (groupSums x).g5 ∧
      p [1, 3] (groupSums x).g6 ∧ p [0, 2, 4] (groupSums x).g7 ∧ p [1, 3, 4] (groupSums x).g9 ∧
      p [2, 3] (groupSums x).g11 ∧ p [2, 4] (groupSums x).g13 ∧ p [3, 4] (groupSums x).g14 := by
  simp only [groups, List.forall_mem_cons, List.not_mem_nil, false_imp_iff, implies_true, and_true]
  rfl

/-- Settles O12: a group's sum is the wrapping one, the exact one under condition (a), and every product is exact. -/
theorem karatsubaProductsOfGroupSums : Obligations.KaratsubaProductsOfGroupSums := by
  refine ⟨fun x => ?_, fun a b h x hx => ?_, fun a b => ?_⟩
  · have hwrap := (groupSums_iff x fun g v => v = (g.map x.get).sum).mp fun g _ => lsum_eq_sum _
    simpa [Five.get, add_assoc] using hwrap
  · have hlt : ∀ g ∈ groups, exactGroupSum x g < 2 ^ 64 := fun g hg => by
      rcases hx with rfl | rfl
      · exact (exactGroupSum_lt_of_boundA h hg).1
      · exact (exactGroupSum_lt_of_boundA h hg).2
    have hexact := (groupSums_iff x fun g v => v.toNat = exactGroupSum x g).mp fun g hg => toNat_lsum_of_lt (hlt g hg)
    simpa [exactGroupSum, Five.get, add_assoc] using hexact
  · simp only [kaProducts, prod_toNat, and_self]

/-! ## The coefficients -/

/-- Settles O13: the accumulator's operations are those of ℤ/2^128. -/
theorem karatsubaReconstructionFormulas : Obligations.KaratsubaReconstructionFormulas := by
  intro p
  simp only [Products.coeffs, Products.s1, Products.s3, accAdd_eq_add, accSub_eq_sub, accDbl_eq_add, two_mul, and_self]

/-- Settles O14: in bound KA_C is SB_C, which is the convolution. -/
theorem karatsubaCoefficientIdentity : Obligations.KaratsubaCoefficientIdentity := by
  intro a b h k
  rw [kaCoeffs_eq_sbCoeffs (boundA_of_inBound h), toNat_get_sbCoeffs_of_inBound h]

/-- Settles O15, by evaluating both datapaths on R85's operands. -/
theorem datapathsDisagreeOutsideConditionA : Obligations.DatapathsDisagreeOutsideConditionA :=
  ⟨by decide, by decide, by decide, by decide, by decide, by decide, by decide⟩

end Sys2Proof.Machine
end

section
/-!
`mul.ka` and the two commands together (R82–R86): what both deliver in bound, that they agree there, and that each
commutes and absorbs zero.
-/

namespace Sys2Proof.Machine

/-! ## Both commands in bound -/

/-- Settles O19: `mul.ka` delivers KA_C, in the two cases of a delivery. -/
theorem mulKaCompletes : Obligations.MulKaCompletes := by
  refine fun a b s => ⟨fun h => ?_, fun hb ho => ?_⟩
  · rw [exec_mulKa, State.deliver_of_computed (i := .mulKa a b) _ h]; rfl
  · rw [exec_mulKa, State.deliver_of_free (i := .mulKa a b) _ hb ho]; rfl

/-- Settles O22: both commands deliver SB_C, which is the convolution modulo 2^128, and that is below 2^128. -/
theorem coefficientRegistersHoldConvolution : Obligations.CoefficientRegistersHoldConvolution := by
  intro a b i s hi hb
  obtain ⟨t, he, -, hc⟩ := exec_of_multipliers_agree hb (kaCoeffs_eq_sbCoeffs (boundA_of_inBound hb)) hi s
  refine ⟨t, he, fun k => ⟨?_, conv_lt_of_inBound hb k⟩⟩
  rw [hc, Nine.get_map, get_sbCoeffs]

/-- Settles O23: in bound both commands deliver the same coefficients, which are equal under condition (a) already. -/
theorem commandsAreEquivalentInBound : Obligations.CommandsAreEquivalentInBound := by
  refine ⟨fun a b s hb => ?_, fun a b ha => ?_⟩
  · have hagree : kaCoeffs a b = sbCoeffs a b := kaCoeffs_eq_sbCoeffs (boundA_of_inBound hb)
    obtain ⟨t, he, hr, hc⟩ := exec_of_multipliers_agree hb hagree (.inr rfl) s
    refine ⟨?_, t, he, hc, hr⟩
    rw [exec_mulKa, exec_mulSb, State.deliver_of_computed (i := .mulKa a b) _ (.inl hb),
      State.deliver_of_computed (i := .mulSb a b) _ (.inl hb), hagree]
  · rw [kaCoeffs_eq_sbCoeffs ha]
    exact ⟨rfl, rfl, toNat_get_sbCoeffs a b⟩

/-! ## Swapped operands -/

/-- The convolution commutes: the pairs (i, j) and (j, i) count alike. -/
theorem conv_comm (a b : Limbs) (k : Nat) : conv a b k = conv b a k := by
  rw [conv_eq_sum, conv_eq_sum, Finset.sum_comm]
  simp only [add_comm, mul_comm]

theorem exactCarried_comm (a b : Limbs) (k : Nat) : exactCarried a b k = exactCarried b a k := by
  induction k with
  | zero => exact conv_comm a b 0
  | succ k ih => rw [exactCarried, exactCarried, conv_comm, ih]

/-- The bound does not depend on the order of the operands (R81). -/
theorem inBound_comm (a b : Limbs) : inBound a b = inBound b a := by
  rw [Bool.eq_iff_iff]
  simp only [inBound_iff, boundA_iff, boundC_iff, conv_comm a b, exactCarried_comm a b, and_comm]

theorem sbCoeffs_comm (a b : Limbs) : sbCoeffs a b = sbCoeffs b a :=
  Nine.ext_get fun k => by rw [get_sbCoeffs, get_sbCoeffs, conv_comm]

/-- The Karatsuba coefficients commute, in bound or not: each of the fourteen products does. -/
theorem kaCoeffs_comm (a b : Limbs) : kaCoeffs a b = kaCoeffs b a := by
  have hproducts : kaProducts a b = kaProducts b a := by simp only [kaProducts, prod_comm]
  rw [kaCoeffs, hproducts, kaCoeffs]

/-- What a computed delivery delivers depends on the coefficients only, not on the command. -/
theorem State.deliver_congr {i j : Instr} {cv dv : Coeffs} {s : State}
    (hi : inBound i.opA i.opB = true ∨ s.oobResult = .datapath)
    (hj : inBound j.opA j.opB = true ∨ s.oobResult = .datapath) (hcv : cv = dv) :
    s.deliver i cv = s.deliver j dv := by
  rw [State.deliver_of_computed cv hi, State.deliver_of_computed dv hj, hcv]

/-! ## A zero operand -/

theorem conv_zero_left (b : Limbs) (k : Nat) : conv (Five.fill 0) b k = 0 := by
  simp [conv, Five.get_fill]

theorem sbCoeffs_zero_left (b : Limbs) : sbCoeffs (Five.fill 0) b = Nine.fill 0 :=
  Nine.ext_get fun k => by rw [get_sbCoeffs, conv_zero_left, Nine.get_fill]; rfl

/-- Zero limbs have zero group sums, and with them zero products and coefficients. -/
theorem kaCoeffs_zero_left (b : Limbs) : kaCoeffs (Five.fill 0) b = Nine.fill 0 := by
  have hsums : groupSums ⟨0, 0, 0, 0, 0⟩ = ⟨0, 0, 0, 0, 0, 0, 0, 0, 0⟩ := by decide
  have hlimbs : (Five.fill 0 : Limbs) = ⟨0, 0, 0, 0, 0⟩ := rfl
  have hproducts : kaProducts (Five.fill 0) b = ⟨0, 0, 0, 0, 0, 0, 0, 0, 0, 0, 0, 0, 0, 0⟩ := by
    simp only [hlimbs, kaProducts, hsums, zero_prod]
  rw [kaCoeffs, hproducts]
  decide

/-- Zero limbs on either side give zero coefficients, by either multiplier. -/
theorem coeffs_of_zero_operand {a b : Limbs} (h : a = Five.fill 0 ∨ b = Five.fill 0) :
    sbCoeffs a b = Nine.fill 0 ∧ kaCoeffs a b = Nine.fill 0 := by
  rcases h with rfl | rfl
  · exact ⟨sbCoeffs_zero_left b, kaCoeffs_zero_left b⟩
  · rw [sbCoeffs_comm, kaCoeffs_comm]
    exact ⟨sbCoeffs_zero_left a, kaCoeffs_zero_left a⟩

/-- A delivery of zero coefficients is zero in R and C. -/
theorem State.deliver_zero {i : Instr} {s : State} (h : inBound i.opA i.opB = true ∨ s.oobResult = .datapath) :
    (s.deliver i (Nine.fill 0)).r = Five.fill (some 0) ∧ (s.deliver i (Nine.fill 0)).c = Nine.fill (some 0) := by
  rw [State.deliver_of_computed _ h, State.finish_r, State.finish_c]
  exact ⟨by decide, rfl⟩

/-- A delivery out of bound under `any`, element by element: free values of the command's own (R93, log 4). -/
theorem State.deliver_free_get {i : Instr} {s : State} (cv : Coeffs) (hb : inBound i.opA i.opB = false)
    (ho : s.oobResult = .any) :
    (∀ j, (s.deliver i cv).r.get j = some (Config.drawLimb (.command i) s.stream (s.draws + j.val))) ∧
    ∀ k, (s.deliver i cv).c.get k = some (Config.drawCoeff (.command i) s.stream (s.draws + 5 + k.val)) := by
  rw [State.deliver_of_free cv hb ho, State.finish_r, State.finish_c]
  refine ⟨fun j => ?_, fun k => ?_⟩
  · rw [Five.get_map, State.freeLimbs, Config.drawLimbs, Five.get_tabulate]
  · rw [Nine.get_map, State.freeCoeffs, Config.drawCoeffs, Nine.get_tabulate]

/-- Settles O24: the bound and both multipliers commute and give zero for zero limbs; else the values are free. -/
theorem commandsCommuteAndAbsorbZero : Obligations.CommandsCommuteAndAbsorbZero := by
  refine ⟨fun a b s h => ?_, fun a b i s hi hzero h => ?_, fun a b i s hi _ hb ho => ?_⟩
  · have hswap : inBound b a = true ∨ s.oobResult = .datapath := inBound_comm a b ▸ h
    simp only [exec_mulSb, exec_mulKa, Host.Outcome.next.injEq]
    exact ⟨State.deliver_congr h hswap (sbCoeffs_comm a b), State.deliver_congr h hswap (kaCoeffs_comm a b)⟩
  · obtain ⟨hsb, hka⟩ := coeffs_of_zero_operand hzero
    rcases hi with rfl | rfl
    · exact ⟨_, exec_mulSb a b s, hsb ▸ State.deliver_zero h⟩
    · exact ⟨_, exec_mulKa a b s, hka ▸ State.deliver_zero h⟩
  · rcases hi with rfl | rfl
    · exact ⟨_, exec_mulSb a b s, State.deliver_free_get _ hb ho⟩
    · exact ⟨_, exec_mulKa a b s, State.deliver_free_get _ hb ho⟩

end Sys2Proof.Machine
end

section
/-!
Transactions (R88–R96): which step is due, what ACCEPT, COMPLETE, a held request and a READ each do to the whole state, and
what the response depends on.
-/

namespace Sys2Proof.Machine

/-! ## REQ_READY and the step that is due -/

theorem State.reqReady_of_idle {s : State} (h : s.phase = .idle) : s.reqReady = true := by simp [State.reqReady, h]

theorem State.reqReady_of_busy {s : State} (h : s.phase = .busy) : s.reqReady = false := by simp [State.reqReady, h]

/-- An IDLE instance has nothing to complete (R91). -/
theorem State.blockMoves_of_idle {s : State} (h : s.phase = .idle) : s.blockMoves = false := by
  simp [State.blockMoves, h]

/-- With no turn left a BUSY instance moves (log 6). -/
theorem State.blockMoves_of_no_turns {s : State} (h : s.phase = .busy) (ht : s.turns = []) : s.blockMoves = true := by
  cases hs : s.script <;> simp [State.blockMoves, h, hs, ht]

/-- At the instance's own turn a BUSY instance moves (R88). -/
theorem State.blockMoves_of_block {s : State} {ts : List Turn} (h : s.phase = .busy) (ht : s.turns = .block :: ts) :
    s.blockMoves = true := by
  cases hs : s.script <;> simp [State.blockMoves, h, hs, ht]

/-- Where the instance moves, the step is its COMPLETE (R88). -/
theorem State.stepKind_of_blockMoves {s : State} (h : s.blockMoves = true) : s.stepKind = .complete := by
  simp only [State.stepKind, h, if_true]

/-- A request presented to an IDLE instance, held or offered, is accepted (R89). -/
theorem State.stepKind_of_presented {s : State} {d : Directive} {q : Request} {rest : List Directive}
    (hd : d = .request q ∨ d = .offer q) (hs : s.script = d :: rest) (h : s.phase = .idle) :
    s.stepKind = .accept q := by
  rw [State.stepKind_of_host hs (State.blockMoves_of_idle h)]
  rcases hd with rfl | rfl <;> simp only [directiveKind, State.reqReady_of_idle h, if_true]

/-- A request presented to a BUSY instance at the host's move is a hold (R90). -/
theorem State.stepKind_of_presented_busy {s : State} {d : Directive} {q : Request} {rest : List Directive}
    (hd : d = .request q ∨ d = .offer q) (hs : s.script = d :: rest) (h : s.phase = .busy) (hb : s.blockMoves = false) :
    s.stepKind = .hold := by
  rw [State.stepKind_of_host hs hb]
  rcases hd with rfl | rfl <;> simp only [directiveKind, State.reqReady_of_busy h, Bool.false_eq_true, if_false]

/-! ## The whole state after a step of the host -/

/-- A step of the host at an IDLE instance advances the script only. -/
theorem State.hostStep_cons_of_idle {s : State} {d : Directive} {rest : List Directive} (hs : s.script = d :: rest)
    (h : s.phase = .idle) : s.hostStep = { s with script := if directiveDone s d then rest else d :: rest } := by
  rw [State.hostStep, State.passTurn_idle ((State.advanceScript_phase s).trans h), State.advanceScript_cons hs]

/-- A step of the host at a BUSY instance advances the script and uses up a turn (log 6). -/
theorem State.hostStep_cons_of_busy {s : State} {d : Directive} {rest : List Directive} (hs : s.script = d :: rest)
    (h : s.phase = .busy) :
    s.hostStep = { s with turns := s.turns.tail, script := if directiveDone s d then rest else d :: rest } := by
  rw [State.hostStep, State.passTurn_busy ((State.advanceScript_phase s).trans h), State.advanceScript_cons hs]

/-! ## ACCEPT -/

/-- Settles O39: the step is an ACCEPT, before which the host's side takes the request off the script. -/
theorem acceptLatchesTheRequest : Obligations.AcceptLatchesTheRequest := by
  intro s d q rest hd hs hidle
  have hdone : directiveDone s d = true := by
    rcases hd with rfl | rfl
    · exact State.reqReady_of_idle hidle
    · rfl
  rw [step_of_accept (State.stepKind_of_presented hd hs hidle), State.hostStep_cons_of_idle hs hidle, if_pos hdone]
  rfl

/-! ## COMPLETE -/

/-- COMPLETE always answers a next state (R91, R96). -/
theorem complete_next (s : State) : ∃ t, complete s = .next t := by
  rcases complete_cases s with ⟨i, cv, -, he⟩ | ⟨-, -, he⟩
  · exact ⟨_, he⟩
  · exact ⟨_, he⟩

/-- A COMPLETE step ends IDLE and leaves the host's script where it is (R91). -/
theorem step_complete_next {s : State} (hk : s.stepKind = .complete) :
    ∃ t, step s = .next t ∧ t.phase = .idle ∧ t.script = s.script := by
  obtain ⟨t, ht⟩ := complete_next s.passTurn
  refine ⟨t, (step_of_complete hk).trans ht, phase_of_complete ht, ?_⟩
  rcases complete_next_cases ht with ⟨i, cv, rfl⟩ | rfl <;> simp

/-- Settles O40: while BUSY a presented request is a hold; COMPLETE and RESET end IDLE with the request still at the head of
the script, where it is accepted. -/
theorem busyInstanceHoldsRequests : Obligations.BusyInstanceHoldsRequests := by
  intro s q rest hbusy
  refine ⟨State.reqReady_of_busy hbusy, fun hb hs => ?_, fun hb hs => ?_, fun hb hs => ?_, fun hb hs => ?_⟩
  · have hkeeps : directiveDone s (.request q) = false := State.reqReady_of_busy hbusy
    rw [step_of_hold (State.stepKind_of_presented_busy (.inl rfl) hs hbusy hb), State.hostStep_cons_of_busy hs hbusy,
      hkeeps, if_neg Bool.false_ne_true, ← hs]
  · rw [step_of_hold (State.stepKind_of_presented_busy (.inr rfl) hs hbusy hb), State.hostStep_cons_of_busy hs hbusy,
      directiveDone, if_pos rfl]
  · obtain ⟨t, hstep, hidle, hscript⟩ := step_complete_next (State.stepKind_of_blockMoves hb)
    exact ⟨t, hstep, State.reqReady_of_idle hidle, State.stepKind_of_presented (.inl rfl) (hscript.trans hs) hidle⟩
  · have hk : s.stepKind = .reset := State.stepKind_of_host hs hb
    have hscript : s.hostStep.resetBlock.script = .request q :: rest := by
      rw [State.resetBlock_script, State.hostStep_script_cons hs, directiveDone, if_pos rfl]
    exact ⟨_, step_of_reset hk, rfl, State.stepKind_of_presented (.inl rfl) hscript rfl⟩

/-- The instruction of a word the decoder reads from a table word (R36, R43). -/
theorem decode_of_decodeTableWord {nbits w : Nat} {i : Instr} (h : decodeTableWord nbits w = some i) :
    decode (tableRequest nbits w) = .ok i := by
  unfold decodeTableWord at h
  split at h
  · cases hd : decode (tableRequest nbits w) with
    | ok j => rw [hd, Except.toOption, Option.some.injEq] at h; rw [h]
    | error e => simp [hd, Except.toOption] at h
  · simp at h

/-- Right after the placing of a word that decodes, the step is its COMPLETE, and the turn placed with it passes (log 7). -/
theorem step_withRequest {q : Request} {i : Instr} (hi : decode q = .ok i) (s : State) :
    step (s.withRequest q) = exec i (s.accept q) := by
  have hholds : (s.withRequest q).Holds q := ⟨rfl, rfl, rfl, rfl⟩
  have hk : (s.withRequest q).stepKind = .complete :=
    State.stepKind_of_blockMoves (State.blockMoves_of_block rfl (State.withRequest_turns q s))
  exact hholds.step_complete_ok hk hi

/-- Settles O42: the latches hold the word, so COMPLETE runs what it decodes to. -/
theorem stepRunsTheDecodedInstruction : Obligations.StepRunsTheDecodedInstruction := by
  refine ⟨fun s q i hb hcmd ha hbop hi => ?_, fun s q i hi => step_withRequest hi s,
    fun s nbits w i hi => step_withRequest (decode_of_decodeTableWord hi) s⟩
  have hholds : s.Holds q := ⟨State.busy_of_blockMoves hb, hcmd, ha, hbop⟩
  exact hholds.step_complete_ok (State.stepKind_of_blockMoves hb) hi

/-! ## What the response depends on -/

/-- The coefficients an instruction delivers do not depend on the state (R58, R83). -/
theorem exec_eq_deliver (i : Instr) : ∃ cv, ∀ s, exec i s = .next (s.deliver i cv) := by
  cases i with
  | mulSb a b => exact ⟨_, exec_mulSb a b⟩
  | mulKa a b => exact ⟨_, exec_mulKa a b⟩

/-- What a delivery writes to R and C depends on OOB_RESULT and the free values only (R92, R93). -/
theorem State.deliver_response_congr {i : Instr} {s t : State} (cv : Coeffs) (hoob : s.oobResult = t.oobResult)
    (hlimbs : s.freeLimbs i = t.freeLimbs i) (hcoeffs : s.freeCoeffs i = t.freeCoeffs i) :
    (s.deliver i cv).r = (t.deliver i cv).r ∧ (s.deliver i cv).c = (t.deliver i cv).c := by
  rcases s.deliver_cases i cv with ⟨h, he⟩ | ⟨hb, ho, he⟩
  · rw [he, State.deliver_of_computed cv (hoob ▸ h)]
    exact ⟨rfl, rfl⟩
  · rw [he, State.deliver_of_free cv hb (hoob ▸ ho), hlimbs, hcoeffs]
    exact ⟨rfl, rfl⟩

/-- Settles O45: equal latches decode alike; a command delivers by OOB_RESULT and the draw, and an illegal CMD gets the one
ILLEGAL_CMD response. -/
theorem responseDependsOnTheRequestAlone : Obligations.ResponseDependsOnTheRequestAlone := by
  intro s1 s2 hcmd ha hb hoob hdraw
  have hlatched : s2.latched = s1.latched := by rw [State.latched, State.latched, hcmd, ha, hb]
  cases h1 : s1.latched with
  | error e =>
    exact ⟨_, _, complete_of_error h1, complete_of_error (hlatched.trans h1), rfl, rfl, rfl, rfl, rfl⟩
  | ok i =>
    obtain ⟨cv, hexec⟩ := exec_eq_deliver i
    obtain ⟨hlimbs, hcoeffs⟩ := hdraw i h1
    obtain ⟨hr, hc⟩ := State.deliver_response_congr cv hoob hlimbs hcoeffs
    exact ⟨_, _, (complete_of_ok h1).trans (hexec s1), (complete_of_ok (hlatched.trans h1)).trans (hexec s2), by simp, hr, hc,
      by simp, by simp⟩

/-- Settles O44: a delivery has STATUS = OK in all its cases, and out of bound OOB_RESULT says which values it has. -/
theorem outOfBoundIsNotSignalled : Obligations.OutOfBoundIsNotSignalled := by
  intro a b i cv s hi hb
  obtain ⟨he, hbound⟩ : exec i s = .next (s.deliver i cv) ∧ inBound i.opA i.opB = false := by
    rcases hi with ⟨rfl, rfl⟩ | ⟨rfl, rfl⟩
    · exact ⟨exec_mulSb a b s, hb⟩
    · exact ⟨exec_mulKa a b s, hb⟩
  refine ⟨_, he, s.deliver_status i cv, s.deliver_rspValid i cv, s.deliver_phase i cv, State.deliver_free_get cv hbound,
    fun ho => ?_⟩
  rw [State.deliver_of_computed cv (.inr ho), State.finish_r, State.finish_c]
  exact ⟨Five.get_map _ _, Nine.get_map _ _⟩

/-! ## READ -/

/-- A response register is read exactly while RSP_VALID = 1 and it holds a value (R95). -/
theorem shown_map_eq_some_iff {α : Type} (valid : Bool) (x : Option α) (f : α → FieldValue) (v : FieldValue) :
    (if valid then x.map f else none) = some v ↔ valid = true ∧ ∃ y, x = some y ∧ v = f y := by
  cases valid with
  | true => simp [eq_comm]
  | false => simp

/-- A READ whose field cannot be read is the fault HOST_READ_INVALID (R95). -/
theorem step_of_read_none {s : State} {f : Field} (hk : s.stepKind = .read f) (hv : s.readField f = none) :
    step s = .fault (.hostReadInvalid f) := by
  simp only [step, stepAs, hk, readStep, hv]

/-- Settles O46: what a field reads as is by the field; a READ notes the value on the host's side, or ends the run. -/
theorem readReturnsOrFaults : Obligations.ReadReturnsOrFaults := by
  refine ⟨fun s => ⟨rfl, rfl, fun v => ?_, fun i v => ?_, fun k v => ?_⟩, fun s f v hk hv => ?_, fun s f hk hv => ?_⟩
  · exact shown_map_eq_some_iff s.rspValid s.status .code v
  · exact shown_map_eq_some_iff s.rspValid (s.r.get i) .limb v
  · exact shown_map_eq_some_iff s.rspValid (s.c.get k) .coeff v
  · exact ⟨_, step_of_read hk hv, by simp⟩
  · have hfault := step_of_read_none hk hv
    exact ⟨hfault, run_succ_of_fault hfault⟩

/-! ## The outcomes of a step -/

/-- A step of each kind answers a next state, but for a READ of a field that cannot be read (R96). -/
theorem step_outcome (s : State) : (∃ t, step s = .next t) ∨
    ∃ f, s.stepKind = .read f ∧ s.readField f = none ∧ step s = .fault (.hostReadInvalid f) := by
  cases hk : s.stepKind with
  | reset => exact .inl ⟨_, step_of_reset hk⟩
  | accept q => exact .inl ⟨_, step_of_accept hk⟩
  | complete =>
    obtain ⟨t, hstep, -⟩ := step_complete_next hk
    exact .inl ⟨t, hstep⟩
  | read f =>
    cases hv : s.readField f with
    | some v => exact .inl ⟨_, step_of_read hk hv⟩
    | none => exact .inr ⟨f, rfl, hv, step_of_read_none hk hv⟩
  | hold => exact .inl ⟨_, step_of_hold hk⟩
  | quiet => exact .inl ⟨s, by simp only [step, stepAs, hk]⟩

/-- Settles O49, by the kinds of step; a presented request is accepted in IDLE, and COMPLETE is what a BUSY instance takes
with no turn left. -/
theorem stepOutcomes : Obligations.StepOutcomes := by
  refine ⟨step_outcome, fun s hk => ⟨_, step_of_hold hk, by simp⟩, fun s q rest hidle hs => ?_, fun s hbusy ht => ?_⟩
  · have hk : s.stepKind = .accept q := State.stepKind_of_presented (.inl rfl) hs hidle
    exact ⟨hk, _, step_of_accept hk, rfl⟩
  · have hk : s.stepKind = .complete := State.stepKind_of_blockMoves (State.blockMoves_of_no_turns hbusy ht)
    obtain ⟨t, hstep, hidle, -⟩ := step_complete_next hk
    exact ⟨hk, t, hstep, hidle⟩

end Sys2Proof.Machine
end

section
/-!
Exceptions (R100, R104, R112, R120): the idle instance, RESET against the other steps due at the same point, and the
ILLEGAL_CMD response.
-/

namespace Sys2Proof.Machine

/-! ## The idle instance -/

/-- A step at which nothing is due changes nothing (R112). -/
theorem step_of_quiet {s : State} (hk : s.stepKind = .quiet) : step s = .next s := by
  simp only [step, stepAs, hk]

/-- Nothing is due at an IDLE instance of which the host asks nothing (R112). -/
theorem State.stepKind_of_idle_of_no_script {s : State} (hidle : s.phase = .idle) (hs : s.script = []) :
    s.stepKind = .quiet := by
  simp [State.stepKind, State.blockMoves_of_idle hidle, hs]

/-- Settles O41, by the kinds of step: an IDLE instance takes no COMPLETE, and a READ, a hold and a quiet step touch the
host's side only. -/
theorem idleInstanceHoldsItsState : Obligations.IdleInstanceHoldsItsState := by
  refine ⟨fun s t hidle hstep haccept hreset => ?_, fun s hidle hs =>
    step_of_quiet (State.stepKind_of_idle_of_no_script hidle hs)⟩
  rcases step_next_cases hstep with ⟨hk, -⟩ | ⟨q, hk, -⟩ | ⟨hk, -⟩ | ⟨f, v, -, -, rfl⟩ | ⟨-, rfl⟩ | ⟨-, rfl⟩
  · exact absurd hk hreset
  · exact absurd hk (haccept q)
  · simp [State.busy_of_complete hk] at hidle
  · simp [hidle]
  · simp [hidle]
  · simp [hidle]

/-! ## Steps due at the same point -/

/-- Where the host and the instance are both due, the instance moves unless the host asserts RESET (R104, R120). -/
theorem State.blockMoves_of_both {s : State} {d : Directive} {rest : List Directive} {ts : List Turn}
    (hbusy : s.phase = .busy) (hs : s.script = d :: rest) (ht : s.turns = .both :: ts) :
    s.blockMoves = !assertsReset d := by
  simp only [State.blockMoves, hbusy, hs, ht]

/-- Every directive but a `reset` asserts no RESET. -/
theorem assertsReset_eq_false {d : Directive} (h : ∀ p, d ≠ .reset p) : assertsReset d = false := by
  cases d with
  | reset p => exact absurd rfl (h p)
  | request q => rfl
  | offer q => rfl
  | wait => rfl
  | read f => rfl
  | expect f v => rfl

/-- A RESET the host asserts is the step wherever the instance does not move, and it ends IDLE with no response, whether or
not a request is presented with it (R104, R113). -/
theorem step_reset_of_host {s : State} {p : Option Request} {rest : List Directive} (hs : s.script = .reset p :: rest)
    (hb : s.blockMoves = false) :
    s.stepKind = .reset ∧ ∃ t, step s = .next t ∧ t.phase = .idle ∧ t.rspValid = false := by
  have hk : s.stepKind = .reset := State.stepKind_of_host hs hb
  exact ⟨hk, _, step_of_reset hk, rfl, rfl⟩

/-- Settles O38: the instance does not move against a RESET, and moves against every other directive. -/
theorem resetWinsOverSimultaneousSteps : Obligations.ResetWinsOverSimultaneousSteps := by
  refine ⟨fun s p rest ts hbusy hs ht => step_reset_of_host hs (State.blockMoves_of_both hbusy hs ht),
    fun s q rest hidle hs => step_reset_of_host hs (State.blockMoves_of_idle hidle), fun s d rest ts hbusy hs ht hd => ?_⟩
  have hb : s.blockMoves = true := by rw [State.blockMoves_of_both hbusy hs ht, assertsReset_eq_false hd, Bool.not_false]
  have hk : s.stepKind = .complete := State.stepKind_of_blockMoves hb
  obtain ⟨t, hstep, hidle, hscript⟩ := step_complete_next hk
  exact ⟨hk, t, hstep, hscript, hidle⟩

/-! ## The ILLEGAL_CMD response -/

/-- COMPLETE of latches that do not decode gives the ILLEGAL_CMD response, and the turn passes (R100). -/
theorem step_of_latched_error {s : State} {e : DecodeError} (hb : s.blockMoves = true) (he : s.latched = .error e) :
    step s = .next { s with turns := s.turns.tail }.illegalCmd := by
  rw [step_of_complete (State.stepKind_of_blockMoves hb), complete_of_error (s.latched_passTurn.trans he),
    State.passTurn_busy (State.busy_of_blockMoves hb)]

/-- Every CMD but the two commands' is illegal, whatever the operands (R38). -/
theorem State.latched_of_other_cmd {s : State} (h0 : s.lcmd ≠ 0x00) (h1 : s.lcmd ≠ 0x01) :
    s.latched = .error (.illegalCmd s.lcmd) := by
  rcases s.latched_cases with ⟨h, -⟩ | ⟨h, -⟩ | ⟨-, -, he⟩
  · exact absurd h h0
  · exact absurd h h1
  · exact he

/-- After the ILLEGAL_CMD response a READ of R faults (R95, R100). -/
@[simp] theorem State.readField_r_illegalCmd (i : Fin 5) (s : State) : s.illegalCmd.readField (.r i) = none := by
  simp [State.readField, Five.get_fill]

/-- After the ILLEGAL_CMD response a READ of C faults (R95, R100). -/
@[simp] theorem State.readField_c_illegalCmd (k : Fin 9) (s : State) : s.illegalCmd.readField (.c k) = none := by
  simp [State.readField, Nine.get_fill]

/-- After the ILLEGAL_CMD response STATUS reads as its code (R41, R95). -/
@[simp] theorem State.readField_status_illegalCmd (s : State) :
    s.illegalCmd.readField .status = some (.code statusIllegalCmd) := rfl

/-- Settles O43: the latches do not decode, so the response is ILLEGAL_CMD's, which ends IDLE and holds no R and no C. -/
theorem illegalCommandResponse : Obligations.IllegalCommandResponse := by
  intro s hb h0 h1
  exact ⟨_, step_of_latched_error hb (State.latched_of_other_cmd h0 h1), rfl,
    fun i => State.readField_r_illegalCmd i _, fun k => State.readField_c_illegalCmd k _,
    State.readField_status_illegalCmd _, fun q rest hs => State.stepKind_of_presented (.inl rfl) hs rfl⟩

end Sys2Proof.Machine
end

section
/-!
RESET and hazards (R91, R95, R113, R115, R118, R123): what a RESET step gives, when RSP_VALID rises, READs while a command
is in flight, and the bounded wait of a BUSY instance for its COMPLETE.
-/

namespace Sys2Proof.Machine

/-! ## RESET -/

/-- At the host's own turn the instance does not move, whatever its phase (R88). -/
theorem State.blockMoves_of_host {s : State} {d : Directive} {rest : List Directive} {ts : List Turn}
    (hs : s.script = d :: rest) (ht : s.turns = .host :: ts) : s.blockMoves = false := by
  cases hp : s.phase <;> simp only [State.blockMoves, hp, hs, ht]

/-- Settles O36: RESET is what the host's directive asks for, and takes the directive off the script. -/
theorem resetStepGivesResetValues : Obligations.ResetStepGivesResetValues := by
  refine ⟨fun s p rest hs hb => ?_, fun s rest ts => ?_⟩
  · have hk : s.stepKind = .reset := State.stepKind_of_host hs hb
    have hscript : s.hostStep.resetBlock.script = rest := by
      rw [State.resetBlock_script, State.hostStep_script_cons hs, directiveDone, if_pos rfl]
    exact ⟨_, step_of_reset hk, rfl, rfl, rfl, rfl, rfl, rfl, hscript, by simp⟩
  · exact State.stepKind_of_host (d := .reset none) (rest := rest) rfl (State.blockMoves_of_host rfl rfl)

/-! ## RSP_VALID -/

/-- RSP_VALID rises only at a COMPLETE: RESET and ACCEPT clear it, and no other step writes it (R22, R115). -/
theorem stepKind_of_rspValid_rises {s t : State} (hstep : step s = .next t) (hs : s.rspValid = false)
    (ht : t.rspValid = true) : s.stepKind = .complete := by
  rcases step_next_cases hstep with ⟨-, rfl⟩ | ⟨q, -, rfl⟩ | ⟨hk, -⟩ | ⟨f, v, -, -, rfl⟩ | ⟨-, rfl⟩ | ⟨-, rfl⟩
  · simp at ht
  · simp at ht
  · exact hk
  · simp [hs] at ht
  · simp [hs] at ht
  · simp [hs] at ht

/-- Settles O37: a RESET step ends IDLE and shows nothing, and a COMPLETE needs BUSY. -/
theorem resetAbandonsTheCommand : Obligations.ResetAbandonsTheCommand := by
  refine ⟨fun s p rest _ hs hb => ?_, fun s t hstep hs ht => ?_⟩
  · exact ⟨_, step_of_reset (State.stepKind_of_host hs hb), rfl, rfl, rfl⟩
  · have hk : s.stepKind = .complete := stepKind_of_rspValid_rises hstep hs ht
    exact ⟨hk, State.busy_of_complete hk⟩

/-- With RSP_VALID = 0 only REQ_READY and RSP_VALID itself can be read (R95). -/
theorem State.readField_of_not_rspValid {s : State} {f : Field} (hs : s.rspValid = false) (hready : f ≠ .reqReady)
    (hvalid : f ≠ .rspValid) : s.readField f = none := by
  cases f with
  | reqReady => exact absurd rfl hready
  | rspValid => exact absurd rfl hvalid
  | status => simp [State.readField, hs]
  | r i => simp [State.readField, hs]
  | c k => simp [State.readField, hs]

/-- Settles O48: in a state of the invariant a BUSY instance shows nothing. -/
theorem readsWhileBusyFault : Obligations.ReadsWhileBusyFault := fun _ _ hinv hbusy hk hready hvalid =>
  step_of_read_none hk (State.readField_of_not_rspValid (hinv.busy_shows_nothing hbusy) hready hvalid)

/-! ## The turns of a BUSY instance -/

/-- Whatever the host's directive asks for, something is due (R45, R97). -/
theorem directiveKind_ne_quiet (s : State) (d : Directive) : directiveKind s d ≠ .quiet := by
  cases d with
  | request q => simp only [directiveKind]; split <;> nofun
  | offer q => simp only [directiveKind]; split <;> nofun
  | reset p => nofun
  | wait => nofun
  | read f => nofun
  | expect f v => nofun

/-- Nothing is due only while IDLE: a BUSY instance of which the host asks nothing moves (R112, log 6). -/
theorem State.idle_of_quiet {s : State} (hk : s.stepKind = .quiet) : s.phase = .idle := by
  rcases s.stepKind_cases with ⟨hcomplete, -⟩ | ⟨hb, -, hs⟩ | ⟨d, rest, -, -, hd⟩
  · simp [hk] at hcomplete
  · cases hp : s.phase with
    | idle => rfl
    | busy => simp [State.blockMoves, hp, hs] at hb
  · exact absurd (hd.symm.trans hk) (directiveKind_ne_quiet s d)

/-- The host's side of a step at a BUSY instance uses up a turn (log 6). -/
theorem State.hostStep_turns_of_busy {s : State} (h : s.phase = .busy) : s.hostStep.turns = s.turns.tail := by
  rw [State.hostStep, State.passTurn_busy ((State.advanceScript_phase s).trans h), State.advanceScript_turns]

/-- A BUSY instance that takes no COMPLETE uses up one of the turns it has (log 6, 8). -/
theorem length_turns_of_step {s t : State} (hbusy : s.phase = .busy) (hstep : step s = .next t)
    (hcomplete : s.stepKind ≠ .complete) : t.turns.length < s.turns.length := by
  have hne : s.turns ≠ [] := fun ht =>
    hcomplete (State.stepKind_of_blockMoves (State.blockMoves_of_no_turns hbusy ht))
  have htail : t.turns = s.turns.tail := by
    rcases step_next_cases hstep with ⟨-, rfl⟩ | ⟨q, -, rfl⟩ | ⟨hk, -⟩ | ⟨f, v, -, -, rfl⟩ | ⟨-, rfl⟩ | ⟨hk, rfl⟩
    · exact State.hostStep_turns_of_busy hbusy
    · exact State.hostStep_turns_of_busy hbusy
    · exact absurd hk hcomplete
    · exact State.hostStep_turns_of_busy (s := s.note v) hbusy
    · exact State.hostStep_turns_of_busy hbusy
    · simp [State.idle_of_quiet hk] at hbusy
  rw [htail, List.length_tail]
  exact Nat.sub_one_lt (List.length_pos_iff.mpr hne).ne'

/-! ## Runs -/

/-- A run of one step is the step. -/
theorem run_one (s : State) : core.run 1 s = step s := by
  cases hstep : step s with
  | next t => exact run_succ_of_next hstep 0
  | fault f => exact run_succ_of_fault hstep 0
  | refused r => exact run_succ_of_refused hstep 0

/-- A run of one step more ends as the step from where the shorter one ends. -/
theorem run_succ_eq_step {n : Nat} {s t : State} (h : core.run n s = .next t) : core.run (n + 1) s = step t := by
  induction n generalizing s with
  | zero => cases h; exact run_one _
  | succ n ih =>
    cases hstep : step s with
    | next u => rw [run_succ_of_next hstep] at h ⊢; exact ih h
    | fault f => simp [run_succ_of_fault hstep] at h
    | refused r => simp [run_succ_of_refused hstep] at h

/-! ## The wait for COMPLETE -/

/-- COMPLETE shows a response (R94). -/
theorem rspValid_of_complete {s t : State} (h : complete s = .next t) : t.rspValid = true := by
  rcases complete_next_cases h with ⟨i, cv, rfl⟩ | rfl <;> simp

/-- The step due ends the wait for the response: a COMPLETE, a RESET, or a READ of the host's that faults (R91, R95,
R115). -/
def State.EndsWait (s : State) : Prop :=
  (s.stepKind = .complete ∧ ∃ t, step s = .next t ∧ t.phase = .idle ∧ t.rspValid = true) ∨
  s.stepKind = .reset ∨
  ∃ f, s.stepKind = .read f ∧ step s = .fault (.hostReadInvalid f)

/-- While an instance holds a request, the step due ends the wait, or keeps the request and uses up a turn. -/
theorem State.Holds.endsWait_or_step {s : State} {q : Request} (h : s.Holds q) :
    s.EndsWait ∨ (s.stepKind ≠ .complete ∧ s.stepKind ≠ .reset ∧
      ∃ t, step s = .next t ∧ t.Holds q ∧ t.turns.length < s.turns.length) := by
  rcases step_outcome s with ⟨t, hstep⟩ | ⟨f, hk, -, hfault⟩
  · by_cases hcomplete : s.stepKind = .complete
    · have hc : complete s.passTurn = .next t := (step_of_complete hcomplete).symm.trans hstep
      exact .inl (.inl ⟨hcomplete, t, hstep, phase_of_complete hc, rspValid_of_complete hc⟩)
    · by_cases hreset : s.stepKind = .reset
      · exact .inl (.inr (.inl hreset))
      · exact .inr ⟨hcomplete, hreset, t, hstep, h.after_step hstep hcomplete hreset,
          length_turns_of_step h.busy hstep hcomplete⟩
  · exact .inl (.inr (.inr ⟨f, hk, hfault⟩))

/-- An instance that holds a request comes, within its turns and still holding it, to a step that ends the wait, and no
step before is a COMPLETE or a RESET (R123): by induction on the number of turns left. -/
theorem State.Holds.reaches_endsWait {s : State} {q : Request} (h : s.Holds q) :
    ∃ n t, n ≤ s.turns.length ∧ core.run n s = .next t ∧ t.Holds q ∧ t.EndsWait ∧
      ∀ m, m < n → ∃ u, core.run m s = .next u ∧ u.Holds q ∧ u.stepKind ≠ .complete ∧ u.stepKind ≠ .reset := by
  induction hlen : s.turns.length using Nat.strong_induction_on generalizing s with
  | h len ih =>
    subst hlen
    rcases h.endsWait_or_step with hends | ⟨hcomplete, hreset, s', hstep, h', hlt⟩
    · exact ⟨0, s, Nat.zero_le _, run_zero s, h, hends, fun m hm => absurd hm m.not_lt_zero⟩
    · obtain ⟨n, t, hn, hrun, ht, hends, hbefore⟩ := ih _ hlt h' rfl
      refine ⟨n + 1, t, by omega, (run_succ_of_next hstep n).trans hrun, ht, hends, fun m hm => ?_⟩
      cases m with
      | zero => exact ⟨s, run_zero s, h, hcomplete, hreset⟩
      | succ m =>
        rw [run_succ_of_next hstep]
        exact hbefore m (by omega)

/-- A BUSY instance holds the request its latches are the fields of (R15–R17, R36). -/
theorem State.holds_latches {s : State} (h : s.phase = .busy) : s.Holds (assemble s.lcmd s.la s.lb) :=
  ⟨h, (reqCmd_assemble ..).symm, (reqA_assemble ..).symm, (reqB_assemble ..).symm⟩

/-- Settles O56: the request a BUSY instance holds is in its latches, and is held until the wait ends. -/
theorem busyInstanceCompletes : Obligations.BusyInstanceCompletes := by
  intro s hbusy
  have hs := State.holds_latches hbusy
  obtain ⟨n, t, hn, hrun, ht, hends, hbefore⟩ := hs.reaches_endsWait
  refine ⟨n, t, hn, hrun, ht.busy, ht.cmd.trans hs.cmd.symm, ht.opA.trans hs.opA.symm, ht.opB.trans hs.opB.symm,
    fun m hm => ?_, ?_⟩
  · obtain ⟨u, hu, hholds, hkinds⟩ := hbefore m hm
    exact ⟨u, hu, hholds.busy, hkinds⟩
  · rw [run_succ_eq_step hrun]
    exact hends

end Sys2Proof.Machine
end
